-- ==== Sys2Proof/Word.lean ====
section
/-! DEFINITION. The word types of the block: a byte has 8 bits, a `u16` 16 bits, a command word 64 bits
(00_scope.md R8, 30_encoding.md R51). Every value is unsigned and bit 0 is the least significant bit. -/

namespace Sys2Proof

/-- A byte: 8 bits (00_scope.md R8). -/
abbrev Byte := BitVec 8

/-- A `u16`: an unsigned 16-bit value (00_scope.md R8). -/
abbrev U16 := BitVec 16

/-- A command word `CW[63:0]` (30_encoding.md R51). -/
abbrev CommandWord := BitVec 64

end Sys2Proof
end

