-- ==== Sys2Proof/Config.lean ====
section
/-! DEFINITION. What is fixed for the machine: the constants the spec gives (00_scope.md R4, R5) and the free values,
which are opaque: nothing in Lean can evaluate them, so a claim is true whatever they are. -/

namespace Sys2Proof.Config

/-- The initial value of a checksum computation, and the reset value of `CRC` (00_scope.md R4, 10_state.md R11). -/
def crcInit : U16 := 0xFFFF#16

/-- The feedback constant applied on a right shift (00_scope.md R4). -/
def crcPoly : U16 := 0xA001#16

/-- `READ_BUDGET`: the most bytes the host's one read takes (00_scope.md R5, 45_transaction.md R131). -/
def readBudget : Nat := 8

/-- `READ_TIMEOUT` in milliseconds (00_scope.md R5, 45_transaction.md R132). No rule of the model depends on it. -/
def readTimeoutMs : Nat := 1000

/-- `INTER_TRANSACTION_DELAY` in milliseconds (00_scope.md R5, 45_transaction.md R135). -/
def interTransactionDelayMs : Nat := 500

/-- The default baud rate of the glue layer (00_scope.md R5). -/
def defaultBaud : Nat := 9600

/-- The least capacity a bounded realisation may have (00_scope.md R7). -/
def minBufMax : Nat := 9

/-- FREE VALUE (log 6): whether the open numbered `k` succeeds (93_implementation_defined.md P1). -/
opaque openSucceeds : Nat → Bool

/-- FREE VALUE (log 6): the platform's message about the failed open numbered `k` (60_exceptions.md R141, R143). -/
opaque platformMessage : Nat → String

/-- FREE VALUE (log 6): whether the write numbered `k` succeeds (93_implementation_defined.md P2). -/
opaque writeSucceeds : Nat → Bool

/-- FREE VALUE (log 6): the bytes the line offers to the read numbered `k` (93_implementation_defined.md P3);
the read takes at most its budget of them. -/
opaque channelBytes : Nat → List Byte

/-- FREE VALUE (log 11): the function code the host expects after the raw frame numbered `k` (93_implementation_defined.md U9). -/
opaque rawExpectedFn : Nat → Byte

end Sys2Proof.Config
end

