-- ==== Sys2Proof/Machine/Operands.lean ====
section
/-! DEFINITION. Operand and field assembly (30_encoding.md R64 to R67), the payloads of the five builders
(42_frame_encoder.md R91 to R95), the channel-index check (R94) and the bit-field unpacker (43_response_decoder.md R105).
No operand is sign-extended, scaled or offset (30_encoding.md R51, R64). -/

namespace Sys2Proof.Machine

/-- `v[15:8]` (30_encoding.md R64). -/
def hiByte (v : U16) : Byte := v.extractLsb' 8 8

/-- `v[7:0]` (30_encoding.md R64). -/
def loByte (v : U16) : Byte := v.extractLsb' 0 8

/-- `{hi, lo}`: a 16-bit field from two bytes (30_encoding.md R64). -/
def be16 (hi lo : Byte) : U16 := hi ++ lo

/-- A 16-bit protocol field on the wire: high byte first (20_memory.md R32). -/
def beBytes (v : U16) : List Byte := [hiByte v, loByte v]

/-- The checksum on the wire: low byte first (20_memory.md R32). -/
def leBytes (v : U16) : List Byte := [loByte v, hiByte v]

/-- The coil value: `0xFF00` when on, `0x0000` when off (30_encoding.md R65, 10_state.md R29). -/
def coilValue (on : Bool) : U16 := if on then 0xFF00#16 else 0x0000#16

/-- `ChannelValid(ch, ch4)` (42_frame_encoder.md R94). -/
def channelValid (ch : Byte) (ch4 : Bool) : Bool :=
  if ch4 then decide (ch.toNat ≤ 3) else decide (ch.toNat ≤ 7)

/-- The payload of a read request (30_encoding.md R56; 42_frame_encoder.md R91, R92). -/
def readPayload (slave fn : Byte) (start count : U16) : List Byte :=
  [slave, fn] ++ beBytes start ++ beBytes count

/-- The payload of a write-single-coil request (30_encoding.md R57; 42_frame_encoder.md R93). -/
def writeCoilPayload (slave ch : Byte) (on : Bool) : List Byte :=
  [slave, 0x05#8, 0x00#8, ch] ++ beBytes (coilValue on)

/-- The payload of a write-slave-address request (30_encoding.md R58; 42_frame_encoder.md R95). -/
def writeAddrPayload (new : Byte) : List Byte :=
  [0x00#8, 0x10#8, 0x00#8, 0x00#8, 0x00#8, 0x01#8, 0x02#8, 0x00#8, new]

/-- `Unpack8(b)`: element `i` is bit `i` of `b`, the state of channel `i + 1` (43_response_decoder.md R105). -/
def unpack8 (b : Byte) : List Bool := (List.range 8).map b.getLsbD

end Sys2Proof.Machine
end

