-- ==== Sys2Proof/Machine/Checksum.lean ====
section
/-! DEFINITION. The pure checksum functions of the CRC unit (41_crc.md R80 to R83) and the trailer they give a frame
(42_frame_encoder.md R90). The encoder and the decoder use these functions and never the register `CRC`
(10_state.md R11). -/

namespace Sys2Proof.Machine

/-- `CrcBit(r)`: one shift step; the bit tested is the low bit before the shift (41_crc.md R80). -/
def crcBit (r : U16) : U16 := if r.getLsbD 0 then (r >>> 1) ^^^ Config.crcPoly else r >>> 1

/-- `CrcBit` applied `n` times. -/
def crcSteps : Nat → U16 → U16
  | 0, r => r
  | n + 1, r => crcSteps n (crcBit r)

/-- `CrcByte(r, b)`: the byte is XORed into the low byte of the register, then eight steps are taken (41_crc.md R81). -/
def crcByte (r : U16) (b : Byte) : U16 := crcSteps 8 (r ^^^ b.setWidth 16)

/-- `Crc16(s)`: the bytes are absorbed in index order from `0xFFFF`; no final XOR, reversal or swap (41_crc.md R82). -/
def crc16 (s : List Byte) : U16 := s.foldl crcByte Config.crcInit

/-- `CrcBytes(s)`: the wire form of the checksum, low byte first (41_crc.md R83). -/
def crcBytes (s : List Byte) : List Byte := leBytes (crc16 s)

/-- `AppendCrc(p)` (42_frame_encoder.md R90, 30_encoding.md R66). -/
def appendCrc (p : List Byte) : List Byte := p ++ crcBytes p

/-- Whether the last two bytes are the checksum of all bytes before them: the frame invariant of 10_state.md R14 and the
strict CRC test of 43_response_decoder.md R115. -/
def trailerOk (raw : List Byte) : Bool :=
  raw.drop (raw.length - 2) == crcBytes (raw.take (raw.length - 2))

end Sys2Proof.Machine
end

