-- ==== Sys2Proof/Syntax.lean ====
section
/-! DEFINITION. The syntax: one constructor of `Instr` for each row of spec/opcode_table.json, and `Packet`, the three
forms in which an encoding reaches the machine. The twelve command rows are the block's operations (30_encoding.md R52);
the ten wire rows are frames on the serial link, "labels for data layouts, not operations of the block" (R73), which are
kept apart from command words as R50 asks (log 1). -/

namespace Sys2Proof

inductive Instr where
  -- Operand buffer (44_buffer_config.md)
  | bufClr
  | bufPush (b : Byte)
  -- CRC unit (41_crc.md)
  | crcInit
  | crcByte (b : Byte)
  | crcCompute
  -- Frame encoder (42_frame_encoder.md)
  | bldRdbits (slave fn : Byte) (start count : U16)
  | bldRdhold (slave : Byte) (start count : U16)
  | bldWrcoil (slave ch : Byte) (on : Bool)
  | bldWraddr (new : Byte)
  | bldRaw (appendCrc : Bool)
  -- Response decoder (43_response_decoder.md)
  | decDecode (expfn : Byte)
  -- Configuration (44_buffer_config.md)
  | cfgSet (flags : BitVec 3)
  -- Wire requests (30_encoding.md R56 to R58); `crc` is the trailer as a 16-bit number, sent low byte first
  | reqRdcoils (slave : Byte) (start count crc : U16)
  | reqRdinputs (slave : Byte) (start count crc : U16)
  | reqRdhold (slave : Byte) (start count crc : U16)
  | reqWrcoil (slave ch : Byte) (on : Bool) (crc : U16)
  | reqWraddr (new : Byte) (crc : U16)
  -- Wire responses (30_encoding.md R60 to R63)
  | rspRdcoils (slave byteCount status : Byte) (crc : U16)
  | rspRdinputs (slave byteCount status : Byte) (crc : U16)
  | rspRdhold (slave byteCount valueHi valueLo : Byte) (crc : U16)
  | rspWrcoil (slave : Byte) (addr value crc : U16)
  | rspWrreg (slave : Byte) (addr count crc : U16)
  deriving DecidableEq, Repr

/-- What an encoding is, and at which of the machine's interfaces it stands (30_encoding.md R50): a command word given to
the block, a frame the host writes to the link, or bytes the host's read of the link returns. -/
inductive Packet where
  | command (cw : CommandWord)
  | request (frame : List Byte)
  | response (raw : List Byte)
  deriving DecidableEq, Repr

/-- Why a packet is no instruction. -/
inductive DecodeError where
  /-- `OP` is none of the twelve values (30_encoding.md R53). -/
  | unknownOpcode
  /-- A must-be-zero bit of the format is 1 (30_encoding.md R53). -/
  | mustBeZeroSet
  /-- BLD.RDHOLD with `CW[47:40] != 0x03` (30_encoding.md R53). -/
  | rdholdFunction
  /-- The bytes have none of the wire layouts of the opcode table; such a frame still travels (30_encoding.md R59, R69). -/
  | unknownLayout
  deriving DecidableEq, Repr

end Sys2Proof
end

