-- ==== Sys2Proof/Machine/WireLayout.lean ====
section
/-! DEFINITION. The layouts of the ten wire rows (30_encoding.md R56 to R63): the bytes before the trailer, and the trailer.
Encoder, decoder laws and well-formedness all read them here. -/

namespace Sys2Proof

open Machine in
/-- The bytes of a wire frame before its trailer (30_encoding.md R56 to R63); a command word has none. -/
def Instr.wirePayload : Instr → List Byte
  | .bufClr | .bufPush _ | .crcInit | .crcByte _ | .crcCompute => []
  | .bldRdbits _ _ _ _ | .bldRdhold _ _ _ | .bldWrcoil _ _ _ | .bldWraddr _ | .bldRaw _ => []
  | .decDecode _ | .cfgSet _ => []
  | .reqRdcoils slave start count _ => readPayload slave 0x01#8 start count
  | .reqRdinputs slave start count _ => readPayload slave 0x02#8 start count
  | .reqRdhold slave start count _ => readPayload slave 0x03#8 start count
  | .reqWrcoil slave ch on _ => writeCoilPayload slave ch on
  | .reqWraddr new _ => writeAddrPayload new
  | .rspRdcoils slave byteCount status _ => [slave, 0x01#8, byteCount, status]
  | .rspRdinputs slave byteCount status _ => [slave, 0x02#8, byteCount, status]
  | .rspRdhold slave byteCount valueHi valueLo _ => [slave, 0x03#8, byteCount, valueHi, valueLo]
  | .rspWrcoil slave addr value _ => [slave, 0x05#8] ++ beBytes addr ++ beBytes value
  | .rspWrreg slave addr count _ => [slave, 0x10#8] ++ beBytes addr ++ beBytes count

/-- The trailer of a wire frame as a 16-bit number; a command word has none. -/
def Instr.wireCrc : Instr → Option U16
  | .bufClr | .bufPush _ | .crcInit | .crcByte _ | .crcCompute => none
  | .bldRdbits _ _ _ _ | .bldRdhold _ _ _ | .bldWrcoil _ _ _ | .bldWraddr _ | .bldRaw _ => none
  | .decDecode _ | .cfgSet _ => none
  | .reqRdcoils _ _ _ crc | .reqRdinputs _ _ _ crc | .reqRdhold _ _ _ crc => some crc
  | .reqWrcoil _ _ _ crc | .reqWraddr _ crc => some crc
  | .rspRdcoils _ _ _ crc | .rspRdinputs _ _ _ crc | .rspRdhold _ _ _ _ crc => some crc
  | .rspWrcoil _ _ _ crc | .rspWrreg _ _ _ crc => some crc

/-- The bytes of a wire frame with the trailer `crc`, low byte first (30_encoding.md R54). -/
def wireFrame (i : Instr) (crc : U16) : List Byte := i.wirePayload ++ Machine.leBytes crc

end Sys2Proof
end

