-- ==== Sys2Proof/WellFormed.lean ====
section
/-! DEFINITION. Well-formed instructions. A command's operands are exactly the fields of its format, so every value of
them is legal (30_encoding.md R51; BLD.RDBITS with another `fn` is a legal word that raises EncodingError, R53 and
95_test_vectors.md section 6). A wire frame is well-formed when it has the structure of R54: its trailer is the checksum
of the bytes before it; a write-coil request moreover names a channel index in 0 to 7 (10_state.md R28) (log 17). -/

namespace Sys2Proof

/-- The channel index of a write-coil request is one of the eight channels (10_state.md R28). -/
def Instr.channelInRange : Instr → Bool
  | .reqWrcoil _ ch _ _ => decide (ch.toNat ≤ 7)
  | .bufClr | .bufPush _ | .crcInit | .crcByte _ | .crcCompute => true
  | .bldRdbits _ _ _ _ | .bldRdhold _ _ _ | .bldWrcoil _ _ _ | .bldWraddr _ | .bldRaw _ => true
  | .decDecode _ | .cfgSet _ => true
  | .reqRdcoils _ _ _ _ | .reqRdinputs _ _ _ _ | .reqRdhold _ _ _ _ | .reqWraddr _ _ => true
  | .rspRdcoils _ _ _ _ | .rspRdinputs _ _ _ _ | .rspRdhold _ _ _ _ _ => true
  | .rspWrcoil _ _ _ _ | .rspWrreg _ _ _ _ => true

/-- The trailer is the checksum of the payload (30_encoding.md R54). -/
def Instr.trailerMatches (i : Instr) : Bool :=
  match i.wireCrc with
  | none => true
  | some crc => crc == Machine.crc16 i.wirePayload

/-- Every check at once. -/
def Instr.wellFormed (i : Instr) : Bool := i.trailerMatches && i.channelInRange

end Sys2Proof
end

