-- ==== Sys2Proof/Decode.lean ====
section
/-! DEFINITION. The decoder, total on every packet and refusing by name, and after it the encoder. Command words follow
30_encoding.md R51 to R53, wire frames R56 to R63. Which of the two levels a packet is at is said by the packet, since the
spec keeps them apart (R50); what the host's numbering of a table row's bits means is said at `packetOfTableWord`. -/

namespace Sys2Proof

open Machine

/-! ## The fields of a command word (30_encoding.md R51) -/

/-- `OP = CW[63:56]`. -/
def cwOp (cw : CommandWord) : Byte := cw.extractLsb' 56 8
/-- `CW[55:48]`: `b` of format B, `slave` of formats R and C. -/
def cwByte (cw : CommandWord) : Byte := cw.extractLsb' 48 8
/-- `CW[47:40]`: `fn` of format R, `ch` of format C. -/
def cwByte2 (cw : CommandWord) : Byte := cw.extractLsb' 40 8
/-- `start = CW[39:24]` of format R. -/
def cwStart (cw : CommandWord) : U16 := cw.extractLsb' 24 16
/-- `count = CW[23:8]` of format R. -/
def cwCount (cw : CommandWord) : U16 := cw.extractLsb' 8 16
/-- `on = CW[32]` of format C. -/
def cwOn (cw : CommandWord) : Bool := cw.getLsbD 32
/-- `flags = CW[50:48]` of format F. -/
def cwFlags (cw : CommandWord) : BitVec 3 := cw.extractLsb' 48 3
/-- `appendCrc = CW[48]` of BLD.RAW. -/
def cwAppendCrc (cw : CommandWord) : Bool := cw.getLsbD 48

/-! ## The must-be-zero bits of the formats (30_encoding.md R51, R52) -/

/-- Format Z: `CW[55:0]`. -/
def mbzZ (cw : CommandWord) : Bool := cw.extractLsb' 0 56 == 0#56
/-- Format B: `CW[47:0]`. -/
def mbzB (cw : CommandWord) : Bool := cw.extractLsb' 0 48 == 0#48
/-- Format R: `CW[7:0]`. -/
def mbzR (cw : CommandWord) : Bool := cw.extractLsb' 0 8 == 0#8
/-- Format C: `CW[39:33]` and `CW[31:0]`. -/
def mbzC (cw : CommandWord) : Bool := cw.extractLsb' 33 7 == 0#7 && cw.extractLsb' 0 32 == 0#32
/-- Format F: `CW[55:51]` and `CW[47:0]`. -/
def mbzF (cw : CommandWord) : Bool := cw.extractLsb' 51 5 == 0#5 && cw.extractLsb' 0 48 == 0#48
/-- BLD.RAW: `CW[55:49]` and `CW[47:0]` (`CW[50:49]` in addition to format F, R52). -/
def mbzRaw (cw : CommandWord) : Bool := cw.extractLsb' 49 7 == 0#7 && cw.extractLsb' 0 48 == 0#48

/-- The instruction when the must-be-zero bits are zero, the named refusal when one is 1. -/
def ifZero (ok : Bool) (i : Instr) : Except DecodeError Instr :=
  if ok then .ok i else .error .mustBeZeroSet

/-- The opcode map (30_encoding.md R52, R53): the word `cw` whose opcode is `op`. -/
def decodeOpcode (op : Byte) (cw : CommandWord) : Except DecodeError Instr :=
  if op = 0x01#8 then ifZero (mbzZ cw) .bufClr
  else if op = 0x02#8 then ifZero (mbzB cw) (.bufPush (cwByte cw))
  else if op = 0x10#8 then ifZero (mbzZ cw) .crcInit
  else if op = 0x11#8 then ifZero (mbzB cw) (.crcByte (cwByte cw))
  else if op = 0x12#8 then ifZero (mbzZ cw) .crcCompute
  else if op = 0x20#8 then
    ifZero (mbzR cw) (.bldRdbits (cwByte cw) (cwByte2 cw) (cwStart cw) (cwCount cw))
  else if op = 0x21#8 then
    if cwByte2 cw = 0x03#8 then ifZero (mbzR cw) (.bldRdhold (cwByte cw) (cwStart cw) (cwCount cw))
    else .error .rdholdFunction
  else if op = 0x22#8 then ifZero (mbzC cw) (.bldWrcoil (cwByte cw) (cwByte2 cw) (cwOn cw))
  else if op = 0x23#8 then ifZero (mbzB cw) (.bldWraddr (cwByte cw))
  else if op = 0x24#8 then ifZero (mbzRaw cw) (.bldRaw (cwAppendCrc cw))
  else if op = 0x30#8 then ifZero (mbzB cw) (.decDecode (cwByte cw))
  else if op = 0x40#8 then ifZero (mbzF cw) (.cfgSet (cwFlags cw))
  else .error .unknownOpcode

/-- The command decoder: total on all `2^64` words (30_encoding.md R53). -/
def decodeCommand (cw : CommandWord) : Except DecodeError Instr := decodeOpcode (cwOp cw) cw

/-- The layouts of the wire requests (30_encoding.md R56 to R58). Any trailer is read into the field `crc`: whether it is
the right one is `Instr.wellFormed`'s question (log 17). -/
def decodeRequest : List Byte → Except DecodeError Instr
  | [slave, fn, b2, b3, b4, b5, c0, c1] =>
    if fn = 0x01#8 then .ok (.reqRdcoils slave (be16 b2 b3) (be16 b4 b5) (be16 c1 c0))
    else if fn = 0x02#8 then .ok (.reqRdinputs slave (be16 b2 b3) (be16 b4 b5) (be16 c1 c0))
    else if fn = 0x03#8 then .ok (.reqRdhold slave (be16 b2 b3) (be16 b4 b5) (be16 c1 c0))
    else if fn = 0x05#8 then
      if b2 = 0x00#8 ∧ be16 b4 b5 = coilValue true then .ok (.reqWrcoil slave b3 true (be16 c1 c0))
      else if b2 = 0x00#8 ∧ be16 b4 b5 = coilValue false then .ok (.reqWrcoil slave b3 false (be16 c1 c0))
      else .error .unknownLayout
    else .error .unknownLayout
  | [b0, b1, b2, b3, b4, b5, b6, b7, new, c0, c1] =>
    if [b0, b1, b2, b3, b4, b5, b6, b7, new] = writeAddrPayload new then .ok (.reqWraddr new (be16 c1 c0))
    else .error .unknownLayout
  | _ => .error .unknownLayout

/-- The layouts of the wire responses at the sizes the system uses: 6, 7, 8 and 8 bytes (30_encoding.md R60 to R63, R68). -/
def decodeResponse : List Byte → Except DecodeError Instr
  | [slave, fn, byteCount, status, c0, c1] =>
    if fn = 0x01#8 then .ok (.rspRdcoils slave byteCount status (be16 c1 c0))
    else if fn = 0x02#8 then .ok (.rspRdinputs slave byteCount status (be16 c1 c0))
    else .error .unknownLayout
  | [slave, fn, byteCount, hi, lo, c0, c1] =>
    if fn = 0x03#8 then .ok (.rspRdhold slave byteCount hi lo (be16 c1 c0))
    else .error .unknownLayout
  | [slave, fn, b2, b3, b4, b5, c0, c1] =>
    if fn = 0x05#8 then .ok (.rspWrcoil slave (be16 b2 b3) (be16 b4 b5) (be16 c1 c0))
    else if fn = 0x10#8 then .ok (.rspWrreg slave (be16 b2 b3) (be16 b4 b5) (be16 c1 c0))
    else .error .unknownLayout
  | _ => .error .unknownLayout

/-- The decoder. -/
def decode : Packet → Except DecodeError Instr
  | .command cw => decodeCommand cw
  | .request frame => decodeRequest frame
  | .response raw => decodeResponse raw

/-! ## The encoder -/

/-- The encoder, from the format table of 30_encoding.md R51, the opcode map R52 and the layouts R56 to R63. -/
def encode (i : Instr) : Packet :=
  match i with
  | .bufClr => .command (0x01#8 ++ 0#56)
  | .bufPush b => .command (0x02#8 ++ b ++ 0#48)
  | .crcInit => .command (0x10#8 ++ 0#56)
  | .crcByte b => .command (0x11#8 ++ b ++ 0#48)
  | .crcCompute => .command (0x12#8 ++ 0#56)
  | .bldRdbits slave fn start count => .command (0x20#8 ++ slave ++ fn ++ start ++ count ++ 0#8)
  | .bldRdhold slave start count => .command (0x21#8 ++ slave ++ 0x03#8 ++ start ++ count ++ 0#8)
  | .bldWrcoil slave ch on => .command (0x22#8 ++ slave ++ ch ++ 0#7 ++ BitVec.ofBool on ++ 0#32)
  | .bldWraddr new => .command (0x23#8 ++ new ++ 0#48)
  | .bldRaw appendCrc => .command (0x24#8 ++ 0#7 ++ BitVec.ofBool appendCrc ++ 0#48)
  | .decDecode expfn => .command (0x30#8 ++ expfn ++ 0#48)
  | .cfgSet flags => .command (0x40#8 ++ 0#5 ++ flags ++ 0#48)
  | .reqRdcoils _ _ _ crc => .request (wireFrame i crc)
  | .reqRdinputs _ _ _ crc => .request (wireFrame i crc)
  | .reqRdhold _ _ _ crc => .request (wireFrame i crc)
  | .reqWrcoil _ _ _ crc => .request (wireFrame i crc)
  | .reqWraddr _ crc => .request (wireFrame i crc)
  | .rspRdcoils _ _ _ crc => .response (wireFrame i crc)
  | .rspRdinputs _ _ _ crc => .response (wireFrame i crc)
  | .rspRdhold _ _ _ _ crc => .response (wireFrame i crc)
  | .rspWrcoil _ _ _ crc => .response (wireFrame i crc)
  | .rspWrreg _ _ _ crc => .response (wireFrame i crc)

/-! ## The opcode table's numbering -/

/-- The `n` bytes of the pattern number `w`, most significant first: a wire row's pattern is read left to right, byte 0
bit 7 first, so its last bit is bit 0 of the number (30_encoding.md R73). -/
def bytesOfNat : Nat → Nat → List Byte
  | 0, _ => []
  | n + 1, w => BitVec.ofNat 8 (w / 256 ^ n) :: bytesOfNat n w

/-- The packet whose bytes have one of the wire layouts. Where one frame is both a request and its own echo
(30_encoding.md R62) it is taken as the request: the bytes alone do not say the direction (log 12). -/
def framePacket (bytes : List Byte) : Option Packet :=
  match decodeRequest bytes, decodeResponse bytes with
  | .ok _, _ => some (.request bytes)
  | .error _, .ok _ => some (.response bytes)
  | .error _, .error _ => none

/-- The packet that a table row's number stands for. A command row has 64 bits; a wire row as many as its pattern. Where
one 64-bit number is both a legal command word and an 8-byte frame the command is taken; a number that is no frame when
read as the pattern is read counts its bytes from the least significant end instead; and a number that is no frame in
either order stands for an illegal command word when it has 64 bits and for a raw frame of its bytes otherwise (log 12). -/
def packetOfTableWord (nbits w : Nat) : Packet :=
  let cw : CommandWord := BitVec.ofNat 64 w
  let bytes := bytesOfNat (nbits / 8) w
  match nbits == 64, decodeCommand cw with
  | true, .ok _ => .command cw
  | _, _ => ((framePacket bytes).orElse fun _ => framePacket bytes.reverse).getD
      (if nbits == 64 then .command cw else .request bytes)

/-- The instruction the decoder reads from a table row's number. -/
def decodeTableWord (nbits w : Nat) : Option Instr :=
  match decode (packetOfTableWord nbits w) with
  | .ok i => some i
  | .error _ => none

end Sys2Proof
end

