-- ==== Sys2Proof/Machine/State.lean ====
section
/-! DEFINITION. The state of the machine as plain data: `Block`, the registers of 10_state.md R10 and nothing else;
`Env`, the environment the block lives in (10_state.md R25, in scope by 00_scope.md R2); the parameter `BUF_MAX`
(00_scope.md R7); the reasons a step can stop; and the state after reset (70_reset_and_hazards.md R160). -/

namespace Sys2Proof.Machine

/-- The tag of the Response (10_state.md R15). Codes 6 and 7 are never produced. -/
inductive RespTag where
  | noResult
  | bitStatus
  | registerByteValue
  | writeAck
  | malformed
  | timeout
  deriving DecidableEq, Repr

/-- The causes of 60_exceptions.md R141. The block itself writes only codes 0, 1, 6 and 7 to `ERR` (10_state.md R19). -/
inductive Cause where
  | noError
  | encodingError
  | portUnavailable
  | channelError
  | malformed
  | timeout
  | illegalCommand
  | bufferOverflow
  deriving DecidableEq, Repr

/-- The registers of the block (10_state.md R10). `ILEN` and `FLEN` are the lengths of `ibuf` and `fbuf`, which list
exactly the bytes that hold a value (log 4). An `Option` is the spec's own "holds no value" (R24, log 5). -/
structure Block where
  /-- `CRC` (R11). -/
  crc : U16
  /-- `IBUF[0..ILEN-1]` (R13). -/
  ibuf : List Byte
  /-- `FBUF[0..FLEN-1]` (R14). -/
  fbuf : List Byte
  /-- `FVALID` (R14). -/
  fvalid : Bool
  /-- `RTAG` (R15). -/
  rtag : RespTag
  /-- `BITS` (R16). -/
  bits : Option Byte
  /-- `REGVAL` (R17). -/
  regval : Option Byte
  /-- `ACK_ADDR` (R18). -/
  ackAddr : Option U16
  /-- `ACK_VAL` (R18). -/
  ackVal : Option U16
  /-- `ERR` (R19). -/
  err : Cause
  /-- `WARN` (R20). -/
  warn : Bool
  /-- `CFG` (R21): bit 0 `STRICT_ECHO`, bit 1 `STRICT_CRC`, bit 2 `CH4`. -/
  cfg : BitVec 3
  deriving DecidableEq, Repr

/-- The source's Response: a tagged union (10_state.md R15). `bitStatus` carries the status byte, which is how the block
holds the list of 8 booleans (43_response_decoder.md R105). -/
inductive Response where
  | bitStatus (b : Byte)
  | registerByteValue (v : Byte)
  | writeAck (addr value : U16)
  | malformed
  | timeout
  deriving DecidableEq, Repr

/-- The states of the Transaction (45_transaction.md R130). -/
inductive Phase where
  | idle
  | frameSent
  | responseReceived
  | timedOut
  | decoded
  | channelError
  deriving DecidableEq, Repr

/-- The outcome of the latest transaction (45_transaction.md R129, 60_exceptions.md R143, R146). A failed open is reported
"with the underlying platform message" (R143), which is recorded with it (R141). -/
inductive XactOutcome where
  | pending
  | response (r : Response)
  | portUnavailable (message : String)
  | channelError
  deriving DecidableEq, Repr

/-- An open serial channel: what `open(portName, baudRate)` was given (20_memory.md R36). -/
structure ChannelHandle where
  portName : String
  baudRate : Nat
  deriving DecidableEq, Repr

/-- What the host can read directly (44_buffer_config.md R123). -/
inductive RegName where
  | crc
  | crcLo
  | crcHi
  | ibufByte (index : Nat)
  | ilen
  | fbufByte (index : Nat)
  | flen
  | fvalid
  | rtag
  | bits
  | regval
  | ackAddr
  | ackVal
  | err
  | warn
  | cfg
  deriving DecidableEq, Repr

/-- One item of the host's script. -/
inductive HostAction where
  /-- A command word for the block, a frame for the link, or the bytes the host's read of the link returns. -/
  | packet (p : Packet)
  /-- `open(portName, baudRate)` (20_memory.md R36). -/
  | openPort (portName : String) (baudRate : Nat)
  /-- XACT (45_transaction.md R129) with the frame in `FBUF`, built for function code `fn`: the write. -/
  | xact (fn : Byte)
  /-- XACT, continued after the write: the one read; without a frame written before it there is no read (log 23). -/
  | xactRead (fn : Byte)
  /-- XACT, continued after the read returned `raw`: loading the operand and DEC.DECODE; only after a read (log 23). -/
  | xactDecode (fn : Byte) (raw : List Byte)
  /-- `close()`, idempotent (20_memory.md R36). -/
  | closePort
  /-- The full host sequence: open, XACT, close on every path (45_transaction.md R134). -/
  | transaction (portName : String) (baudRate : Nat) (fn : Byte)
  /-- The full host sequence of a host that reads `FVALID` after the builder and sends only when it is 1
  (70_reset_and_hazards.md R172); DESIGN CHOICE that the commands of 30_encoding.md R71 do so (log 21). -/
  | transactionIfBuilt (portName : String) (baudRate : Nat) (fn : Byte)
  /-- A delay of the host (45_transaction.md R135). -/
  | wait (ms : Nat)
  /-- A direct read of a register (44_buffer_config.md R123). -/
  | readReg (r : RegName)
  /-- The block's reset, applied from outside (70_reset_and_hazards.md R160). -/
  | resetBlock
  deriving DecidableEq, Repr

/-- The environment (10_state.md R25). No operation of the block reads or writes it. -/
structure Env where
  /-- The host actions still to run, first one first (10_state.md R23). -/
  program : List HostAction
  /-- The serial channel: closed, or open (20_memory.md R36). -/
  channel : Option ChannelHandle
  /-- The frames written to the link, oldest first (20_memory.md R36). -/
  sent : List (List Byte)
  /-- The function code the host used to build the outstanding frame (45_transaction.md R136). -/
  expFn : Byte
  /-- The Transaction's state (45_transaction.md R130). -/
  phase : Phase
  /-- The outcome of the latest transaction. -/
  outcome : XactOutcome
  /-- What the host's latest register read returned (44_buffer_config.md R123). -/
  lastRead : Option Nat
  /-- The model's own counter, to which the free values of Config are applied (log 6). -/
  oracle : Nat
  deriving DecidableEq, Repr

/-- The machine. -/
structure State where
  /-- The registers of the block. -/
  blk : Block
  /-- The parameter `BUF_MAX`: `none` is unbounded (00_scope.md R7, log 3). No step changes it. -/
  bufMax : Option Nat
  /-- The environment. -/
  env : Env
  deriving DecidableEq, Repr

/-- The reasons a step stops with a fault. -/
inductive Fault where
  /-- The host read something that holds no value (10_state.md R24: "which a model reports as a fault"). Raised by
  `HostAction.readReg`, and by `HostAction.xact` when `FVALID = 0` (45_transaction.md R137). Safe: the machine stops where
  the block would deliver something the spec does not define. No instruction raises it. -/
  | noValue (r : RegName)
  deriving DecidableEq, Repr

/-- The reasons a step refuses. -/
inductive Refusal where
  /-- An instruction without a meaning, by its mnemonic. Raised by an arm of `exec` only; no arm raises it now. Safe. -/
  | notModelled (mnemonic : String)
  deriving DecidableEq, Repr

/-- The registers after reset (70_reset_and_hazards.md R160). -/
def Block.reset : Block where
  crc := Config.crcInit
  ibuf := []
  fbuf := []
  fvalid := false
  rtag := .noResult
  bits := none
  regval := none
  ackAddr := none
  ackVal := none
  err := .noError
  warn := false
  cfg := 0#3

/-- The environment when the machine starts. DESIGN CHOICE (log 2, log 6, log 9): the spec's reset is the block's alone. -/
def Env.initial : Env where
  program := []
  channel := none
  sent := []
  expFn := 0x00#8
  phase := .idle
  outcome := .pending
  lastRead := none
  oracle := 0

/-- The machine right after reset: R160 for the registers; DESIGN CHOICE an unbounded `BUF_MAX` (log 3) and `Env.initial`. -/
def State.reset : State where
  blk := Block.reset
  bufMax := none
  env := Env.initial

end Sys2Proof.Machine
end

