-- ==== Sys2Proof/Machine/Flags.lean ====
section
/-! DEFINITION. Status and configuration: the codes of `RTAG` and `ERR` (10_state.md R15, 60_exceptions.md R141), the views
`CRC_LO`, `CRC_HI`, `ILEN`, `FLEN` (R12 to R14), the fields of `CFG` (R21), the rule of `WARN` (R20), and the machine's one
way to update the registers and the environment. -/

namespace Sys2Proof.Machine

/-- The 3-bit code of `RTAG` (table of 10_state.md R15). -/
def RespTag.code : RespTag → BitVec 3
  | .noResult => 0#3
  | .bitStatus => 1#3
  | .registerByteValue => 2#3
  | .writeAck => 3#3
  | .malformed => 4#3
  | .timeout => 5#3

/-- The 3-bit code of a cause (table of 60_exceptions.md R141). -/
def Cause.code : Cause → BitVec 3
  | .noError => 0#3
  | .encodingError => 1#3
  | .portUnavailable => 2#3
  | .channelError => 3#3
  | .malformed => 4#3
  | .timeout => 5#3
  | .illegalCommand => 6#3
  | .bufferOverflow => 7#3

/-- `ILEN` (10_state.md R13). -/
def Block.ilen (b : Block) : Nat := b.ibuf.length

/-- `FLEN` (10_state.md R14). -/
def Block.flen (b : Block) : Nat := b.fbuf.length

/-- `CRC_LO = CRC[7:0]` (10_state.md R12). -/
def Block.crcLo (b : Block) : Byte := loByte b.crc

/-- `CRC_HI = CRC[15:8]` (10_state.md R12). -/
def Block.crcHi (b : Block) : Byte := hiByte b.crc

/-- `CFG.STRICT_ECHO`, bit 0 (10_state.md R21). -/
def Block.strictEcho (b : Block) : Bool := b.cfg.getLsbD 0

/-- `CFG.STRICT_CRC`, bit 1 (10_state.md R21). -/
def Block.strictCrc (b : Block) : Bool := b.cfg.getLsbD 1

/-- `CFG.CH4`, bit 2 (10_state.md R21). -/
def Block.ch4 (b : Block) : Bool := b.cfg.getLsbD 2

/-- `WARN` after BLD.WRADDR with the new address `new` (10_state.md R20). -/
def warnOfAddr (new : Byte) : Bool := new == 0xFF#8

/-- The tag of a Response (10_state.md R15). -/
def Response.tag : Response → RespTag
  | .bitStatus _ => .bitStatus
  | .registerByteValue _ => .registerByteValue
  | .writeAck _ _ => .writeAck
  | .malformed => .malformed
  | .timeout => .timeout

/-- The Response that `RTAG` and its payload registers hold; none before the first decode (10_state.md R15). -/
def Block.response (b : Block) : Option Response :=
  match b.rtag with
  | .noResult => none
  | .bitStatus => b.bits.map .bitStatus
  | .registerByteValue => b.regval.map .registerByteValue
  | .writeAck => b.ackAddr.bind fun a => b.ackVal.map fun v => .writeAck a v
  | .malformed => some .malformed
  | .timeout => some .timeout

/-! The updates: every write to a register or to the environment goes through one of these. -/

/-- `CRC <- v`. -/
def Block.setCrc (b : Block) (v : U16) : Block := { b with crc := v }
/-- The operand sequence becomes `s` (`IBUF` and `ILEN` together). -/
def Block.setIbuf (b : Block) (s : List Byte) : Block := { b with ibuf := s }
/-- The frame becomes `f`, valid or not (`FBUF`, `FLEN` and `FVALID` together). -/
def Block.setFrame (b : Block) (f : List Byte) (valid : Bool) : Block := { b with fbuf := f, fvalid := valid }
/-- `RTAG` and the four payload registers, together (43_response_decoder.md R118). -/
def Block.setResult (b : Block) (tag : RespTag) (bits regval : Option Byte) (addr value : Option U16) : Block :=
  { b with rtag := tag, bits := bits, regval := regval, ackAddr := addr, ackVal := value }
/-- `ERR <- c`. -/
def Block.setErr (b : Block) (c : Cause) : Block := { b with err := c }
/-- `WARN <- w`. -/
def Block.setWarn (b : Block) (w : Bool) : Block := { b with warn := w }
/-- `CFG <- v`. -/
def Block.setCfg (b : Block) (v : BitVec 3) : Block := { b with cfg := v }

/-- The registers are replaced, the environment stays. -/
def State.setBlk (s : State) (b : Block) : State := { s with blk := b }
/-- The environment is replaced, the registers stay. -/
def State.setEnv (s : State) (e : Env) : State := { s with env := e }
/-- The host's script is replaced. -/
def State.setProgram (s : State) (p : List HostAction) : State := { s with env := { s.env with program := p } }

end Sys2Proof.Machine
end

