-- ==== Sys2Proof/Machine/Ops.lean ====
section
/-! DEFINITION. The named operations the meanings share: the buffer primitives MemRead and MemWrite (00_scope.md R8),
completing an operation and raising a cause (60_exceptions.md R140, the block's whole exception model; there is no return
operation, R152), the common result of a builder (42_frame_encoder.md R96), the operand buffer (44_buffer_config.md R120,
R121), the decoding of a response (43_response_decoder.md R106 to R112) and the writing of its result (R118). -/

namespace Sys2Proof.Machine

/-! ## Buffers -/

/-- `MemRead(S:i, n)`: the bytes `S[i..i+n-1]`, in index order (00_scope.md R8). No rule reads at or beyond the buffer's
length (20_memory.md R31). -/
def memRead (buf : List Byte) (i n : Nat) : List Byte := (buf.drop i).take n

/-- `MemWrite(S:i, n, v)` with `n = len(v)` (00_scope.md R8). -/
def memWrite (buf : List Byte) (i : Nat) (v : List Byte) : List Byte :=
  buf.take i ++ v ++ buf.drop (i + v.length)

/-- The operand sequence `MemRead(IBUF:0, ILEN)` (10_state.md R13). -/
def Block.operand (b : Block) : List Byte := memRead b.ibuf 0 b.ilen

/-- The built frame `MemRead(FBUF:0, FLEN)` (10_state.md R14, 45_transaction.md R129). -/
def Block.frame (b : Block) : List Byte := memRead b.fbuf 0 b.flen

/-! ## Completing and raising -/

/-- An operation that completes writes `ERR <- 0` (44_buffer_config.md R124). -/
def complete (b : Block) : Block := b.setErr .noError

/-- TAKING AN EXCEPTION (60_exceptions.md R140, R151): the cause's code goes to `ERR`, the operation ends. Nothing is
saved, no mode changes and control goes nowhere. -/
def raise (c : Cause) (b : Block) : Block := b.setErr c

/-- The encoder's exception: EncodingError, and the frame is invalidated (42_frame_encoder.md R96, 60_exceptions.md R142). -/
def raiseEncodingError (b : Block) : Block :=
  raise .encodingError ((b.setFrame [] false).setWarn false)

/-- Success of a builder with the frame `f` (42_frame_encoder.md R96); `warn` as 10_state.md R20 says. The frame replaces
the old one whole: bytes at index `len(f)` and beyond hold no value. -/
def succeedWith (f : List Byte) (warn : Bool) (b : Block) : Block :=
  complete ((b.setFrame (memWrite [] 0 f) true).setWarn warn)

/-! ## The operand buffer -/

/-- The effect of BUF.CLR (44_buffer_config.md R120). -/
def clearOperand (b : Block) : Block := complete (b.setIbuf [])

/-- The effect of BUF.PUSH (44_buffer_config.md R121) for the capacity `bufMax`. -/
def pushOperand (bufMax : Option Nat) (v : Byte) (b : Block) : Block :=
  if bufMax = some b.ilen then raise .bufferOverflow b
  else complete (b.setIbuf (memWrite b.ibuf b.ilen [v]))

/-- BUF.CLR, then one BUF.PUSH for each byte of `raw` (44_buffer_config.md R121, 45_transaction.md R129). -/
def loadOperand (bufMax : Option Nat) (raw : List Byte) (b : Block) : Block :=
  raw.foldl (fun b v => pushOperand bufMax v b) (clearOperand b)

/-! ## The response decoder -/

/-- The function-code arms (43_response_decoder.md R109 to R112), for a buffer of at least four bytes. -/
def decodeArms (raw : List Byte) (h : 4 ≤ raw.length) : Response :=
  if raw[1] = 0x01#8 ∨ raw[1] = 0x02#8 then .bitStatus raw[3]
  else if h3 : raw[1] = 0x03#8 ∧ 5 ≤ raw.length then .registerByteValue raw[4]
  else if h5 : raw[1] = 0x05#8 ∧ 6 ≤ raw.length then .writeAck (be16 raw[2] raw[3]) (be16 raw[4] raw[5])
  else .malformed

/-- `decode(raw, expectedFunction)`: the pseudocode of 43_response_decoder.md R106, in its order of tests (R113). Every
index is read only where the length test before it allows. -/
def decodeRaw (strictEcho strictCrc : Bool) (expfn : Byte) (raw : List Byte) : Response :=
  if raw.length = 0 then .timeout
  else if h4 : raw.length < 4 then .malformed
  else if strictCrc = true ∧ trailerOk raw = false then .malformed
  else if strictEcho = true ∧ raw[1] ≠ expfn then .malformed
  else decodeArms raw (by omega)

/-- "result X" (43_response_decoder.md R118): every payload register the result does not assign holds no value. -/
def writeResult (r : Response) (b : Block) : Block :=
  match r with
  | .bitStatus v => b.setResult .bitStatus (some v) none none none
  | .registerByteValue v => b.setResult .registerByteValue none (some v) none none
  | .writeAck a v => b.setResult .writeAck none none (some a) (some v)
  | .malformed => b.setResult .malformed none none none none
  | .timeout => b.setResult .timeout none none none none

/-- The Response of DEC.DECODE on the block's own operand and configuration. -/
def Block.responseFor (b : Block) (expfn : Byte) : Response :=
  decodeRaw b.strictEcho b.strictCrc expfn b.operand

/-- The effect of DEC.DECODE (43_response_decoder.md R106). -/
def decodeOperand (expfn : Byte) (b : Block) : Block :=
  complete (writeResult (b.responseFor expfn) b)

end Sys2Proof.Machine
end

