-- ==== Sys2Proof/Machine/Buffer.lean ====
section
/-! DEFINITION. The operand-buffer and configuration operations (44_buffer_config.md). -/

namespace Sys2Proof.Machine

/-- BUF.CLR (44_buffer_config.md R120). -/
def execBufClr (s : State) : Host.Outcome State Fault Refusal :=
  .next (s.setBlk (clearOperand s.blk))

/-- BUF.PUSH b (44_buffer_config.md R121). -/
def execBufPush (b : Byte) (s : State) : Host.Outcome State Fault Refusal :=
  .next (s.setBlk (pushOperand s.bufMax b s.blk))

/-- CFG.SET flags (44_buffer_config.md R122): all three bits together. -/
def execCfgSet (flags : BitVec 3) (s : State) : Host.Outcome State Fault Refusal :=
  .next (s.setBlk (complete (s.blk.setCfg flags)))

end Sys2Proof.Machine
end

