-- ==== Sys2Proof/Machine/Crc.lean ====
section
/-! DEFINITION. The operations of the CRC unit (41_crc.md R84 to R86). -/

namespace Sys2Proof.Machine

/-- CRC.INIT (41_crc.md R84). -/
def execCrcInit (s : State) : Host.Outcome State Fault Refusal :=
  .next (s.setBlk (complete (s.blk.setCrc Config.crcInit)))

/-- CRC.BYTE b (41_crc.md R85). -/
def execCrcByte (b : Byte) (s : State) : Host.Outcome State Fault Refusal :=
  .next (s.setBlk (complete (s.blk.setCrc (crcByte s.blk.crc b))))

/-- CRC.COMPUTE (41_crc.md R86): always from `0xFFFF`, whatever `CRC` held. -/
def execCrcCompute (s : State) : Host.Outcome State Fault Refusal :=
  .next (s.setBlk (complete (s.blk.setCrc (crc16 s.blk.operand))))

end Sys2Proof.Machine
end

