-- ==== Sys2Proof/Machine/Decoder.lean ====
section
/-! DEFINITION. The operation of the response decoder (43_response_decoder.md R106). -/

namespace Sys2Proof.Machine

/-- DEC.DECODE expfn (43_response_decoder.md R106 to R118). -/
def execDecDecode (expfn : Byte) (s : State) : Host.Outcome State Fault Refusal :=
  .next (s.setBlk (decodeOperand expfn s.blk))

end Sys2Proof.Machine
end

