-- ==== Sys2Proof/Machine/Encoder.lean ====
section
/-! DEFINITION. The operations of the frame encoder (42_frame_encoder.md R91 to R97). They compute the trailer with the
pure function and do not disturb `CRC` (R90). -/

namespace Sys2Proof.Machine

/-- BLD.RDBITS slave, fn, start, count (42_frame_encoder.md R91). -/
def execBldRdbits (slave fn : Byte) (start count : U16) (s : State) : Host.Outcome State Fault Refusal :=
  if fn ≠ 0x01#8 ∧ fn ≠ 0x02#8 then .next (s.setBlk (raiseEncodingError s.blk))
  else .next (s.setBlk (succeedWith (appendCrc (readPayload slave fn start count)) false s.blk))

/-- BLD.RDHOLD slave, start, count (42_frame_encoder.md R92). -/
def execBldRdhold (slave : Byte) (start count : U16) (s : State) : Host.Outcome State Fault Refusal :=
  .next (s.setBlk (succeedWith (appendCrc (readPayload slave 0x03#8 start count)) false s.blk))

/-- BLD.WRCOIL slave, ch, on (42_frame_encoder.md R93). -/
def execBldWrcoil (slave ch : Byte) (on : Bool) (s : State) : Host.Outcome State Fault Refusal :=
  if channelValid ch s.blk.ch4 = false then .next (s.setBlk (raiseEncodingError s.blk))
  else .next (s.setBlk (succeedWith (appendCrc (writeCoilPayload slave ch on)) false s.blk))

/-- BLD.WRADDR new (42_frame_encoder.md R95). -/
def execBldWraddr (new : Byte) (s : State) : Host.Outcome State Fault Refusal :=
  .next (s.setBlk (succeedWith (appendCrc (writeAddrPayload new)) (warnOfAddr new) s.blk))

/-- BLD.RAW appendCrc (42_frame_encoder.md R97). -/
def execBldRaw (withCrc : Bool) (s : State) : Host.Outcome State Fault Refusal :=
  .next (s.setBlk (succeedWith (if withCrc then appendCrc s.blk.operand else s.blk.operand) false s.blk))

end Sys2Proof.Machine
end

