-- ==== Sys2Proof/Machine/Link.lean ====
section
/-! DEFINITION. The environment's shared operations on the serial link: a write that succeeds or fails (20_memory.md R37,
60_exceptions.md R146), a read (R38), the end of a transaction once its read has returned (45_transaction.md R129), and the
turn-taking of R42: one transaction has ended before the link is used for the next. -/

namespace Sys2Proof.Machine

/-! ## Writing and reading -/

/-- Whether the link takes a write: a channel that is not open takes none (DESIGN CHOICE, log 7); `accepted` is what the
platform decides for an open one (93_implementation_defined.md P2). -/
def Env.takesWrite (e : Env) (accepted : Bool) : Bool := e.channel.isSome && accepted

/-- `ChanWrite(frame)`. A write that is taken transmits the bytes verbatim, nothing added, nothing checked (20_memory.md R37), and
the Transaction is in FrameSent (45_transaction.md R130). A write that fails ends it with ChannelError, and no read and no decode
follow (60_exceptions.md R146). DESIGN CHOICE: a failed write records nothing in `sent`; whether part of the frame went out is not
stated (91_not_in_source.md N24, log 22). -/
def Env.write (e : Env) (accepted : Bool) (frame : List Byte) : Env :=
  { e with
    sent := if e.takesWrite accepted then e.sent ++ [frame] else e.sent
    phase := if e.takesWrite accepted then .frameSent else .channelError
    outcome := if e.takesWrite accepted then .pending else .channelError }

/-- Whether a transaction waits for its one read: its frame has been written, its channel is open (45_transaction.md R129,
R130; 20_memory.md R42). DESIGN CHOICE: without an open channel there is no read (log 23). -/
def Env.awaiting (e : Env) : Bool := e.phase == .frameSent && e.channel.isSome

/-- What one read of at most `READ_BUDGET` bytes returns: any bytes; a short read is final (45_transaction.md R131, 20_memory.md
R38, 92_eei_decisions.md D25). -/
def Env.readBytes (e : Env) : List Byte := (Config.channelBytes e.oracle).take Config.readBudget

/-! ## The end of a transaction, and turn-taking -/

/-- Steps `BUF.CLR; BUF.PUSH r[i] ...; DEC.DECODE fn; outcome <- the Response` of 45_transaction.md R129, in one step of the
host (log 13). -/
def finishTransaction (fn : Byte) (raw : List Byte) (s : State) : State :=
  let loaded := loadOperand s.bufMax raw s.blk
  (s.setBlk (decodeOperand fn loaded)).setEnv
    { s.env with phase := .decoded, outcome := .response (loaded.responseFor fn) }

/-- "Exactly one Transaction executes at a time" (20_memory.md R42; 70_reset_and_hazards.md R164): before the host uses the link
again, a transaction that still waits makes its one read, which returns any bytes or none, and is decoded (log 24). -/
def settle (s : State) : State :=
  if s.env.awaiting then
    finishTransaction s.env.expFn s.env.readBytes (s.setEnv { s.env with oracle := s.env.oracle + 1 })
  else s

/-- The host writes `frame`, whose answer it will decode for the function code `fn`; `none` says that the frame is not known to
come from a fixed-layout builder, and any code is expected then (45_transaction.md R136, 93_implementation_defined.md U9, log
11). Whether an open channel takes the write is free (P2, 92_eei_decisions.md D25). -/
def sendFrame (fn : Option Byte) (frame : List Byte) (s : State) : State :=
  let u := settle s
  u.setEnv { u.env.write (Config.writeSucceeds u.env.oracle) frame with
    expFn := fn.getD (Config.rawExpectedFn u.env.oracle)
    oracle := u.env.oracle + 1 }

end Sys2Proof.Machine
end

