-- ==== Sys2Proof/Machine/Wire.lean ====
section
/-! DEFINITION. The wire level: what the machine does when a frame with one of the layouts of 30_encoding.md R56 to R63
goes over the link. DESIGN CHOICE (log 1): the spec gives these rows as layouts of data, "not operations of the block"
(R50, R73); the model gives each the effect the environment's rules give such a frame, on the host and through it on the
block. A request is the host's ChanWrite of it (20_memory.md R37); a response is what the host's one read returns, which
the host loads and decodes (45_transaction.md R129). -/

namespace Sys2Proof.Machine

/-- The function code the host passes to the decoder after this frame (45_transaction.md R136): the one of the builder that
makes such a frame. A frame that no fixed-layout builder makes, for its trailer or its channel index, is a raw frame, for which
any value is passed (93_implementation_defined.md U9, log 11). -/
def expectedFor (i : Instr) (fn : Byte) : Option Byte := if i.wellFormed then some fn else none

/-- A REQ row: the host writes its frame. -/
def sendRow (i : Instr) (fn : Byte) (crc : U16) (s : State) : State :=
  sendFrame (expectedFor i fn) (wireFrame i crc) s

/-- The host's read returns `raw`. A waiting transaction takes at most `READ_BUDGET` bytes and ends with their Response
(45_transaction.md R129, R131). When no read waits, the bytes "are not seen by this transaction" (20_memory.md R38): DESIGN
CHOICE that nothing changes then (log 8). -/
def receiveFrame (raw : List Byte) (s : State) : State :=
  if s.env.awaiting then finishTransaction s.env.expFn (raw.take Config.readBudget) s else s

/-- REQ.RDCOILS (30_encoding.md R56). -/
def execReqRdcoils (slave : Byte) (start count crc : U16) (s : State) : Host.Outcome State Fault Refusal :=
  .next (sendRow (.reqRdcoils slave start count crc) 0x01#8 crc s)

/-- REQ.RDINPUTS (30_encoding.md R56). -/
def execReqRdinputs (slave : Byte) (start count crc : U16) (s : State) : Host.Outcome State Fault Refusal :=
  .next (sendRow (.reqRdinputs slave start count crc) 0x02#8 crc s)

/-- REQ.RDHOLD (30_encoding.md R56). -/
def execReqRdhold (slave : Byte) (start count crc : U16) (s : State) : Host.Outcome State Fault Refusal :=
  .next (sendRow (.reqRdhold slave start count crc) 0x03#8 crc s)

/-- REQ.WRCOIL (30_encoding.md R57). -/
def execReqWrcoil (slave ch : Byte) (on : Bool) (crc : U16) (s : State) : Host.Outcome State Fault Refusal :=
  .next (sendRow (.reqWrcoil slave ch on crc) 0x05#8 crc s)

/-- REQ.WRADDR (30_encoding.md R58). -/
def execReqWraddr (new : Byte) (crc : U16) (s : State) : Host.Outcome State Fault Refusal :=
  .next (sendRow (.reqWraddr new crc) 0x10#8 crc s)

/-- RSP.RDCOILS (30_encoding.md R60). -/
def execRspRdcoils (slave byteCount status : Byte) (crc : U16) (s : State) : Host.Outcome State Fault Refusal :=
  .next (receiveFrame (wireFrame (.rspRdcoils slave byteCount status crc) crc) s)

/-- RSP.RDINPUTS (30_encoding.md R60). -/
def execRspRdinputs (slave byteCount status : Byte) (crc : U16) (s : State) : Host.Outcome State Fault Refusal :=
  .next (receiveFrame (wireFrame (.rspRdinputs slave byteCount status crc) crc) s)

/-- RSP.RDHOLD (30_encoding.md R61). -/
def execRspRdhold (slave byteCount valueHi valueLo : Byte) (crc : U16) (s : State) :
    Host.Outcome State Fault Refusal :=
  .next (receiveFrame (wireFrame (.rspRdhold slave byteCount valueHi valueLo crc) crc) s)

/-- RSP.WRCOIL (30_encoding.md R62). -/
def execRspWrcoil (slave : Byte) (addr value crc : U16) (s : State) : Host.Outcome State Fault Refusal :=
  .next (receiveFrame (wireFrame (.rspWrcoil slave addr value crc) crc) s)

/-- RSP.WRREG (30_encoding.md R63). -/
def execRspWrreg (slave : Byte) (addr count crc : U16) (s : State) : Host.Outcome State Fault Refusal :=
  .next (receiveFrame (wireFrame (.rspWrreg slave addr count crc) crc) s)

end Sys2Proof.Machine
end

