-- ==== Sys2Proof/Machine/Dispatch.lean ====
section
/-! DEFINITION. The dispatch: one arm per constructor of `Instr`. -/

namespace Sys2Proof.Machine

def exec (i : Instr) (s : State) : Host.Outcome State Fault Refusal :=
  match i with
  -- operand buffer
  | .bufClr => Sys2Proof.Machine.execBufClr s
  | .bufPush b => Sys2Proof.Machine.execBufPush b s
  -- CRC unit
  | .crcInit => Sys2Proof.Machine.execCrcInit s
  | .crcByte b => Sys2Proof.Machine.execCrcByte b s
  | .crcCompute => Sys2Proof.Machine.execCrcCompute s
  -- frame encoder
  | .bldRdbits slave fn start count => Sys2Proof.Machine.execBldRdbits slave fn start count s
  | .bldRdhold slave start count => Sys2Proof.Machine.execBldRdhold slave start count s
  | .bldWrcoil slave ch on => Sys2Proof.Machine.execBldWrcoil slave ch on s
  | .bldWraddr new => Sys2Proof.Machine.execBldWraddr new s
  | .bldRaw withCrc => Sys2Proof.Machine.execBldRaw withCrc s
  -- response decoder
  | .decDecode expfn => Sys2Proof.Machine.execDecDecode expfn s
  -- configuration
  | .cfgSet flags => Sys2Proof.Machine.execCfgSet flags s
  -- wire requests
  | .reqRdcoils slave start count crc => Sys2Proof.Machine.execReqRdcoils slave start count crc s
  | .reqRdinputs slave start count crc => Sys2Proof.Machine.execReqRdinputs slave start count crc s
  | .reqRdhold slave start count crc => Sys2Proof.Machine.execReqRdhold slave start count crc s
  | .reqWrcoil slave ch on crc => Sys2Proof.Machine.execReqWrcoil slave ch on crc s
  | .reqWraddr new crc => Sys2Proof.Machine.execReqWraddr new crc s
  -- wire responses
  | .rspRdcoils slave byteCount status crc => Sys2Proof.Machine.execRspRdcoils slave byteCount status crc s
  | .rspRdinputs slave byteCount status crc => Sys2Proof.Machine.execRspRdinputs slave byteCount status crc s
  | .rspRdhold slave byteCount hi lo crc => Sys2Proof.Machine.execRspRdhold slave byteCount hi lo crc s
  | .rspWrcoil slave addr value crc => Sys2Proof.Machine.execRspWrcoil slave addr value crc s
  | .rspWrreg slave addr count crc => Sys2Proof.Machine.execRspWrreg slave addr count crc s

end Sys2Proof.Machine
end

