-- ==== Sys2Proof/Machine/Transaction.lean ====
section
/-! DEFINITION. What the host does with one item of its script: give a packet to the machine, open and close the channel
(20_memory.md R36), run XACT (45_transaction.md R129 to R134), read a register (44_buffer_config.md R123), reset the block
(70_reset_and_hazards.md R160). -/

namespace Sys2Proof.Machine

/-! ## Packets -/

/-- A packet that is no instruction. A command word raises IllegalCommand (30_encoding.md R53, 60_exceptions.md R147). A
frame with no layout of the table is data all the same: the host writes it verbatim (30_encoding.md R59, 20_memory.md
R37), the function code it expects is any value (93_implementation_defined.md U9, log 11), and a response is loaded and decoded
whatever it is (30_encoding.md R69). -/
def runUndecoded (p : Packet) (s : State) : Host.Outcome State Fault Refusal :=
  match p with
  | .command _ => .next (s.setBlk (raise .illegalCommand s.blk))
  | .request frame => .next (sendFrame none frame s)
  | .response raw => .next (receiveFrame raw s)

/-- A packet reaches the machine: illegality is decided first (60_exceptions.md R150). -/
def runPacket (p : Packet) (s : State) : Host.Outcome State Fault Refusal :=
  match decode p with
  | .ok i => exec i s
  | .error _ => runUndecoded p s

/-! ## The channel and XACT -/

/-- `open(portName, baudRate)`: the platform decides (93_implementation_defined.md P1). An open channel starts a fresh
transaction in Idle (45_transaction.md R130); a failure is PortUnavailable with the platform's message, filed under the state ChannelError
(60_exceptions.md R143, R146), and leaves the channel closed (log 20). -/
def openChannel (portName : String) (baudRate : Nat) (e : Env) : Env :=
  if Config.openSucceeds e.oracle then
    { e with channel := some ⟨portName, baudRate⟩, phase := .idle, outcome := .pending, oracle := e.oracle + 1 }
  else
    { e with channel := none, phase := .channelError
             outcome := .portUnavailable (Config.platformMessage e.oracle)
             oracle := e.oracle + 1 }

/-- `close()`, idempotent (20_memory.md R36). -/
def closeChannel (e : Env) : Env := { e with channel := none }

/-- The rest of the host sequence after the open: XACT and close on success, nothing on failure (45_transaction.md R134). -/
def afterOpen (fn : Byte) (e : Env) : List HostAction :=
  if e.channel.isSome then [.xact fn, .closePort] else []

/-- The full host sequence around XACT: the open now, the rest put on the script (45_transaction.md R134). -/
def hostSequence (portName : String) (baudRate : Nat) (fn : Byte) (s : State) : State :=
  let u := settle s
  let e := openChannel portName baudRate u.env
  u.setEnv { e with program := afterOpen fn e ++ e.program }

/-- XACT up to and with the write: the whole frame in one call (45_transaction.md R129, 20_memory.md R37). With
`FVALID = 0` the host would read bytes that hold no value, a host error (45_transaction.md R137), on which a model must fault
(00_scope.md section 5; 10_state.md R24; 93_implementation_defined.md U11, "frame after a failed build"; log 14). A
failed write ends the transaction: nothing is put back on the script. -/
def xactWrite (fn : Byte) (s : State) : Host.Outcome State Fault Refusal :=
  if s.blk.fvalid then
    let t := sendFrame (some fn) s.blk.frame s
    .next (if t.env.phase = .frameSent then t.setProgram (.xactRead fn :: t.env.program) else t)
  else .fault (.noValue (.fbufByte 0))

/-- The read of XACT: TimedOut when it returned no byte, ResponseReceived otherwise (45_transaction.md R130). A transaction
whose frame has not been written, or whose channel is not open, makes no read (20_memory.md R42, log 23). -/
def xactRead (fn : Byte) (e : Env) : Env :=
  if e.awaiting then
    { e with
      phase := if e.readBytes = [] then .timedOut else .responseReceived
      outcome := .pending
      oracle := e.oracle + 1
      program := .xactDecode fn e.readBytes :: e.program }
  else e

/-- The end of XACT, after its read (45_transaction.md R129, R130; log 23). -/
def xactDecode (fn : Byte) (raw : List Byte) (s : State) : State :=
  if s.env.phase = .responseReceived ∨ s.env.phase = .timedOut then finishTransaction fn raw s else s

/-! ## Direct reads -/

/-- What the host sees when it reads a register, as a number; nothing when the field holds no value (44_buffer_config.md
R123, 10_state.md R24). -/
def Block.read (b : Block) : RegName → Option Nat
  | .crc => some b.crc.toNat
  | .crcLo => some b.crcLo.toNat
  | .crcHi => some b.crcHi.toNat
  | .ibufByte i => b.ibuf[i]?.map (·.toNat)
  | .ilen => some b.ilen
  | .fbufByte i => if b.fvalid then b.fbuf[i]?.map (·.toNat) else none
  | .flen => some b.flen
  | .fvalid => some b.fvalid.toNat
  | .rtag => some b.rtag.code.toNat
  | .bits => b.bits.map (·.toNat)
  | .regval => b.regval.map (·.toNat)
  | .ackAddr => b.ackAddr.map (·.toNat)
  | .ackVal => b.ackVal.map (·.toNat)
  | .err => some b.err.code.toNat
  | .warn => some b.warn.toNat
  | .cfg => some b.cfg.toNat

/-- A read changes no register. A field that holds no value is one a model "must fault on reading" and "must not pick a value" for
(00_scope.md section 5; 10_state.md R24; 93_implementation_defined.md U11). -/
def readRegister (r : RegName) (s : State) : Host.Outcome State Fault Refusal :=
  match s.blk.read r with
  | some v => .next (s.setEnv { s.env with lastRead := some v })
  | none => .fault (.noValue r)

/-! ## One item of the script -/

/-- What one item of the host's script does, once it has been taken off the script. -/
def runAction (a : HostAction) (s : State) : Host.Outcome State Fault Refusal :=
  match a with
  | .packet p => runPacket p s
  | .openPort portName baudRate => .next ((settle s).setEnv (openChannel portName baudRate (settle s).env))
  | .xact fn => xactWrite fn s
  | .xactRead fn => .next (s.setEnv (xactRead fn s.env))
  | .xactDecode fn raw => .next (xactDecode fn raw s)
  | .closePort => .next ((settle s).setEnv (closeChannel (settle s).env))
  | .transaction portName baudRate fn => .next (hostSequence portName baudRate fn s)
  | .transactionIfBuilt portName baudRate fn =>
    .next (if s.blk.fvalid then s.setProgram (.transaction portName baudRate fn :: s.env.program) else s)
  | .wait _ => .next s
  | .readReg r => readRegister r s
  | .resetBlock => .next (s.setBlk Block.reset)

/-! ## Where the next instruction is fetched -/

/-- The channel, opened when it is closed. -/
def Env.openedChannel (e : Env) : Option ChannelHandle := some (e.channel.getD ⟨"", Config.defaultBaud⟩)

/-- The environment with the packet first on the script, and what its kind of fetch needs: a request needs an open
channel to travel on, a response a read that waits for it on an open channel (log 2). -/
def Env.withPacket (p : Packet) (e : Env) : Env :=
  match p with
  | .command _ => { e with program := .packet p :: e.program }
  | .request _ => { e with program := .packet p :: e.program, channel := e.openedChannel }
  | .response _ =>
    { e with program := .packet p :: e.program, channel := e.openedChannel, phase := .frameSent, outcome := .pending }

end Sys2Proof.Machine
end

