-- ==== Sys2Proof/Machine/Step.lean ====
section
/-! DEFINITION. The step: the host's next action is taken off its script and run (10_state.md R23, 20_memory.md R41);
and where an instruction is placed so that the very next step runs it. -/

namespace Sys2Proof.Machine

/-- One step. With nothing left on the script the block is idle and keeps all its state (60_exceptions.md R158, log 15). -/
def step (s : State) : Host.Outcome State Fault Refusal :=
  match s.env.program with
  | [] => .next s
  | a :: rest => runAction a (s.setProgram rest)

/-- The table row's word placed first on the host's script (log 2, log 12). -/
def State.withFetchWord (s : State) (nbits w : Nat) : State :=
  s.setEnv (s.env.withPacket (packetOfTableWord nbits w))

end Sys2Proof.Machine
end

