-- ==== Sys2Proof/Machine/OpcodeTable.lean ====
section
/-! DEFINITION. The twelve command rows of spec/opcode_table.json as data (30_encoding.md R73), and each instruction's
mnemonic. The decoder does not use them: they are the spec's second description of the same encoding, for claims. -/

namespace Sys2Proof

/-- A command row: a word `w` selects the row when `w & mask = match` (30_encoding.md R73). -/
structure CommandRow where
  mnemonic : String
  pattern : CommandWord
  mask : CommandWord
  deriving DecidableEq, Repr

/-- The command rows, in the table's order. -/
def commandRows : List CommandRow := [
  ⟨"BUF.CLR", 0x0100000000000000#64, 0xFFFFFFFFFFFFFFFF#64⟩,
  ⟨"BUF.PUSH", 0x0200000000000000#64, 0xFF00FFFFFFFFFFFF#64⟩,
  ⟨"CRC.INIT", 0x1000000000000000#64, 0xFFFFFFFFFFFFFFFF#64⟩,
  ⟨"CRC.BYTE", 0x1100000000000000#64, 0xFF00FFFFFFFFFFFF#64⟩,
  ⟨"CRC.COMPUTE", 0x1200000000000000#64, 0xFFFFFFFFFFFFFFFF#64⟩,
  ⟨"BLD.RDBITS", 0x2000000000000000#64, 0xFF000000000000FF#64⟩,
  ⟨"BLD.RDHOLD", 0x2100030000000000#64, 0xFF00FF00000000FF#64⟩,
  ⟨"BLD.WRCOIL", 0x2200000000000000#64, 0xFF0000FEFFFFFFFF#64⟩,
  ⟨"BLD.WRADDR", 0x2300000000000000#64, 0xFF00FFFFFFFFFFFF#64⟩,
  ⟨"BLD.RAW", 0x2400000000000000#64, 0xFFFEFFFFFFFFFFFF#64⟩,
  ⟨"DEC.DECODE", 0x3000000000000000#64, 0xFF00FFFFFFFFFFFF#64⟩,
  ⟨"CFG.SET", 0x4000000000000000#64, 0xFFF8FFFFFFFFFFFF#64⟩]

/-- The table's mnemonic of an instruction. -/
def Instr.mnemonic : Instr → String
  | .bufClr => "BUF.CLR"
  | .bufPush _ => "BUF.PUSH"
  | .crcInit => "CRC.INIT"
  | .crcByte _ => "CRC.BYTE"
  | .crcCompute => "CRC.COMPUTE"
  | .bldRdbits _ _ _ _ => "BLD.RDBITS"
  | .bldRdhold _ _ _ => "BLD.RDHOLD"
  | .bldWrcoil _ _ _ => "BLD.WRCOIL"
  | .bldWraddr _ => "BLD.WRADDR"
  | .bldRaw _ => "BLD.RAW"
  | .decDecode _ => "DEC.DECODE"
  | .cfgSet _ => "CFG.SET"
  | .reqRdcoils _ _ _ _ => "REQ.RDCOILS"
  | .reqRdinputs _ _ _ _ => "REQ.RDINPUTS"
  | .reqRdhold _ _ _ _ => "REQ.RDHOLD"
  | .reqWrcoil _ _ _ _ => "REQ.WRCOIL"
  | .reqWraddr _ _ => "REQ.WRADDR"
  | .rspRdcoils _ _ _ _ => "RSP.RDCOILS"
  | .rspRdinputs _ _ _ _ => "RSP.RDINPUTS"
  | .rspRdhold _ _ _ _ _ => "RSP.RDHOLD"
  | .rspWrcoil _ _ _ _ => "RSP.WRCOIL"
  | .rspWrreg _ _ _ _ => "RSP.WRREG"

/-- The twelve operations of the block, as against the wire rows (30_encoding.md R50, R52). -/
def Instr.isCommand : Instr → Bool
  | .bufClr | .bufPush _ | .crcInit | .crcByte _ | .crcCompute => true
  | .bldRdbits _ _ _ _ | .bldRdhold _ _ _ | .bldWrcoil _ _ _ | .bldWraddr _ | .bldRaw _ => true
  | .decDecode _ | .cfgSet _ => true
  | .reqRdcoils _ _ _ _ | .reqRdinputs _ _ _ _ | .reqRdhold _ _ _ _ | .reqWrcoil _ _ _ _ | .reqWraddr _ _ => false
  | .rspRdcoils _ _ _ _ | .rspRdinputs _ _ _ _ | .rspRdhold _ _ _ _ _ => false
  | .rspWrcoil _ _ _ _ | .rspWrreg _ _ _ _ => false

/-- The five builders `BLD.*` (10_state.md R10). -/
def Instr.isBuilder : Instr → Bool
  | .bldRdbits _ _ _ _ | .bldRdhold _ _ _ | .bldWrcoil _ _ _ | .bldWraddr _ | .bldRaw _ => true
  | .bufClr | .bufPush _ | .crcInit | .crcByte _ | .crcCompute | .decDecode _ | .cfgSet _ => false
  | .reqRdcoils _ _ _ _ | .reqRdinputs _ _ _ _ | .reqRdhold _ _ _ _ | .reqWrcoil _ _ _ _ | .reqWraddr _ _ => false
  | .rspRdcoils _ _ _ _ | .rspRdinputs _ _ _ _ | .rspRdhold _ _ _ _ _ => false
  | .rspWrcoil _ _ _ _ | .rspWrreg _ _ _ _ => false

/-- The three operations of the CRC unit (41_crc.md R84 to R86). -/
def Instr.isCrcOperation : Instr → Bool
  | .crcInit | .crcByte _ | .crcCompute => true
  | .bufClr | .bufPush _ | .decDecode _ | .cfgSet _ => false
  | .bldRdbits _ _ _ _ | .bldRdhold _ _ _ | .bldWrcoil _ _ _ | .bldWraddr _ | .bldRaw _ => false
  | .reqRdcoils _ _ _ _ | .reqRdinputs _ _ _ _ | .reqRdhold _ _ _ _ | .reqWrcoil _ _ _ _ | .reqWraddr _ _ => false
  | .rspRdcoils _ _ _ _ | .rspRdinputs _ _ _ _ | .rspRdhold _ _ _ _ _ => false
  | .rspWrcoil _ _ _ _ | .rspWrreg _ _ _ _ => false

end Sys2Proof
end

