-- ==== Sys2Proof/Machine/Pseudo.lean ====
section
/-! DEFINITION. The pseudo-operations of 30_encoding.md R71: the command-line commands as macros over block operations and
one transaction each. The glue layer itself (texts, argument checks, ports) is out of scope (00_scope.md R2). -/

namespace Sys2Proof.Machine

/-- The commands of 30_encoding.md R71 with their typed arguments. `fn` of the two raw commands is the function code the
decoder is told to expect, which the spec does not state (93_implementation_defined.md U9); the steps of a sweep, each a
channel number from 1 and a state, are the caller's, since their order is not stated either (91_not_in_source.md N13). -/
inductive CliCommand where
  | manualSend (bytes : List Byte) (fn : Byte)
  | autoCrcSend (bytes : List Byte) (fn : Byte)
  | readRelayStatus (slave : Byte)
  | readInputStatus (slave : Byte)
  | checkSlaveAddress
  | setSlaveAddress (new : Byte)
  | relayControl (slave channel : Byte) (on : Bool)
  | testRelaySweep (slave : Byte) (steps : List (Byte × Bool))
  | detectPorts
  deriving DecidableEq, Repr

/-- An operation as the command word of it. -/
def op (i : Instr) : HostAction := .packet (encode i)

/-- The full host sequence of one exchange: `build`, then open, XACT and close (45_transaction.md R134). DESIGN CHOICE: when the
builder raised EncodingError the port is not opened and nothing is sent (60_exceptions.md R142, R150; 70_reset_and_hazards.md
R172; log 21). -/
def exchange (portName : String) (baudRate : Nat) (build : Instr) (fn : Byte) : List HostAction :=
  [op build, .transactionIfBuilt portName baudRate fn]

/-- Loading an operand: BUF.CLR, then BUF.PUSH of each byte (44_buffer_config.md R121). -/
def loadWords (bytes : List Byte) : List HostAction := op .bufClr :: bytes.map fun b => op (.bufPush b)

/-- The expansions of 30_encoding.md R71; the user's channel number is 1-based, the block's 0-based (10_state.md R28). -/
def CliCommand.expand (portName : String) (baudRate : Nat) : CliCommand → List HostAction
  | .manualSend bytes fn => loadWords bytes ++ exchange portName baudRate (.bldRaw false) fn
  | .autoCrcSend bytes fn => loadWords bytes ++ exchange portName baudRate (.bldRaw true) fn
  | .readRelayStatus slave => exchange portName baudRate (.bldRdbits slave 0x01#8 0x0000#16 0x0008#16) 0x01#8
  | .readInputStatus slave => exchange portName baudRate (.bldRdbits slave 0x02#8 0x0000#16 0x0008#16) 0x02#8
  | .checkSlaveAddress => exchange portName baudRate (.bldRdhold 0x00#8 0x0000#16 0x0001#16) 0x03#8
  | .setSlaveAddress new => exchange portName baudRate (.bldWraddr new) 0x10#8
  | .relayControl slave channel on => exchange portName baudRate (.bldWrcoil slave (channel - 1#8) on) 0x05#8
  | .testRelaySweep slave steps =>
    steps.flatMap fun st =>
      exchange portName baudRate (.bldWrcoil slave (st.1 - 1#8) st.2) 0x05#8 ++ [.wait Config.interTransactionDelayMs]
  | .detectPorts => []

end Sys2Proof.Machine
end

