-- ==== Sys2Proof/Safety.lean ====
section
/-! DEFINITION. What counts as a sound state and a safe run, in the terms the claims use. -/

namespace Sys2Proof.Machine

/-- The buffers fit a realisation of capacity `bufMax` (00_scope.md R7; 10_state.md R13; 42_frame_encoder.md R98). -/
def Block.fits (b : Block) : Option Nat → Prop
  | none => True
  | some n => Config.minBufMax ≤ n ∧ b.ilen ≤ n ∧ b.flen ≤ n + 2

/-- With `FVALID = 0` there is no frame: `FLEN = 0` (10_state.md R14). -/
def Block.frameSound (b : Block) : Prop := b.fvalid = false → b.fbuf = []

/-- `WARN = 1` only beside the address-assignment frame for `0xFF` (10_state.md R20). -/
def Block.warnSound (b : Block) : Prop :=
  b.warn = true → b.fvalid = true ∧ b.fbuf = appendCrc (writeAddrPayload 0xFF#8)

/-- Each payload register holds a value exactly under its own tag (10_state.md R15 to R18). -/
def Block.payloadSound (b : Block) : Prop :=
  (b.bits.isSome = true ↔ b.rtag = .bitStatus) ∧
  (b.regval.isSome = true ↔ b.rtag = .registerByteValue) ∧
  (b.ackAddr.isSome = true ↔ b.rtag = .writeAck) ∧
  (b.ackVal.isSome = true ↔ b.rtag = .writeAck)

/-- `ERR` holds one of the four codes the block itself writes (10_state.md R19). -/
def Block.errSound (b : Block) : Prop :=
  b.err = .noError ∨ b.err = .encodingError ∨ b.err = .illegalCommand ∨ b.err = .bufferOverflow

/-- The Transaction's state and outcome agree: a Response exactly in Decoded, an error exactly in ChannelError
(45_transaction.md R130; 60_exceptions.md R143, R146). -/
def Env.outcomeSound (e : Env) : Prop :=
  match e.outcome with
  | .response _ => e.phase = .decoded
  | .portUnavailable _ | .channelError => e.phase = .channelError
  | .pending => e.phase ≠ .decoded ∧ e.phase ≠ .channelError

/-- A transaction waits for its read only on an open channel (20_memory.md R36, R42). -/
def Env.linkSound (e : Env) : Prop := e.phase = .frameSent → e.channel.isSome = true

/-- The registers are sound for the capacity. -/
structure Block.Sound (b : Block) (bufMax : Option Nat) : Prop where
  fits : b.fits bufMax
  frame : b.frameSound
  warn : b.warnSound
  payload : b.payloadSound
  err : b.errSound

/-- The invariant of the machine. -/
structure State.Inv (s : State) : Prop where
  block : s.blk.Sound s.bufMax
  outcome : s.env.outcomeSound
  link : s.env.linkSound

/-- The strict checks that are enabled pass for the operand and the expected function code (43_response_decoder.md R114,
R115). -/
def Block.checksPass (b : Block) (expfn : Byte) : Prop :=
  (b.cfg.getLsbD 1 = true → b.ibuf.drop (b.ilen - 2) = crcBytes (b.ibuf.take (b.ilen - 2))) ∧
  (b.cfg.getLsbD 0 = true → b.ibuf[1]? = some expfn)

/-- The capacity is a legal one (00_scope.md R7). -/
def State.capacityLegal (s : State) : Prop := ∀ n, s.bufMax = some n → Config.minBufMax ≤ n

/-- The action issues the instruction `i` to the block or puts the frame `i` on the link. -/
def HostAction.issues (a : HostAction) (i : Instr) : Prop := ∃ p, a = .packet p ∧ decode p = .ok i

/-- The actions that use the link for a new purpose: a frame written, an open, a close. A transaction that waits is ended before
they do (20_memory.md R42, log 24). -/
def HostAction.usesLink : HostAction → Bool
  | .packet (.request _) | .openPort _ _ | .xact _ | .closePort | .transaction _ _ _ => true
  | .packet (.command _) | .packet (.response _) | .xactRead _ | .xactDecode _ _ | .transactionIfBuilt _ _ _ => false
  | .wait _ | .readReg _ | .resetBlock => false

/-- The actions by which the host, with the environment `e`, has the block decode a response: the command DEC.DECODE, bytes its
read returns, the last part of XACT (45_transaction.md R129), and a use of the link while a transaction waits. -/
def HostAction.decodesResponse (a : HostAction) (e : Env) : Prop :=
  (∃ fn, a.issues (.decDecode fn)) ∨ (∃ raw, a = .packet (.response raw)) ∨ (∃ fn raw, a = .xactDecode fn raw) ∨
    (e.awaiting = true ∧ a.usesLink = true)

/-- What the host's write of `frame` leaves, from the state `u` in which no transaction waits: an open channel that takes the
write has the frame on record after the earlier ones and the transaction waits; otherwise ChannelError and no frame
(20_memory.md R37; 60_exceptions.md R146; log 7, log 22). Each write takes the next free value (log 6). -/
def State.FrameWritten (frame : List Byte) (u t : State) : Prop :=
  t.blk = u.blk ∧ t.bufMax = u.bufMax ∧ t.env.channel = u.env.channel ∧ t.env.lastRead = u.env.lastRead ∧
    t.env.oracle = u.env.oracle + 1 ∧
    if u.env.channel.isSome = true ∧ Config.writeSucceeds u.env.oracle = true then
      t.env.sent = u.env.sent ++ [frame] ∧ t.env.phase = .frameSent ∧ t.env.outcome = .pending
    else t.env.sent = u.env.sent ∧ t.env.phase = .channelError ∧ t.env.outcome = .channelError

/-- What an open leaves, from the state `u`: a channel with a fresh transaction, or PortUnavailable with the platform's message
and no channel (20_memory.md R36; 60_exceptions.md R143; log 20). Each open takes the next free value (log 6). -/
def State.PortOpened (port : String) (baud : Nat) (u t : State) : Prop :=
  t.blk = u.blk ∧ t.bufMax = u.bufMax ∧ t.env.sent = u.env.sent ∧ t.env.oracle = u.env.oracle + 1 ∧
    if Config.openSucceeds u.env.oracle = true then
      t.env.channel = some ⟨port, baud⟩ ∧ t.env.phase = .idle ∧ t.env.outcome = .pending
    else t.env.channel = none ∧ t.env.phase = .channelError ∧
      t.env.outcome = .portUnavailable (Config.platformMessage u.env.oracle)

/-- The states a run from reset reaches, whatever the host's script: the script is loaded from outside (log 2). -/
inductive Reachable (program : List HostAction) : State → Prop where
  | start : Reachable program (State.reset.setProgram program)
  | step {s t : State} : Reachable program s → Machine.step s = .next t → Reachable program t

/-- A safe run: `n` steps without a fault or a refusal. -/
def SafeRun (n : Nat) (s : State) : Prop := ∃ t, Host.Core.run Sys2Proof.core n s = .next t

end Sys2Proof.Machine
end

