-- ==== Sys2Proof/Certificates/Slice0/Obligations.lean ====
section
/-! DEFINITION. The statements for the provers. Each names the rule of spec/ it formalises, or says that it is derived; a
statement that rests on a choice of the model names its log entry. -/

open Sys2Proof Sys2Proof.Machine

/-! ## Reset -/

/-- 70_reset_and_hazards.md R160: the registers at reset, and what the reset event does to a machine in any state. -/
def Obligations.ResetRegisterValues : Prop :=
  (State.reset.blk.crc = 0xFFFF#16 ∧ State.reset.blk.ilen = 0 ∧ State.reset.blk.fvalid = false ∧
    State.reset.blk.flen = 0 ∧ State.reset.blk.rtag.code = 0#3 ∧ State.reset.blk.bits = none ∧
    State.reset.blk.regval = none ∧ State.reset.blk.ackAddr = none ∧ State.reset.blk.ackVal = none ∧
    State.reset.blk.err.code = 0#3 ∧ State.reset.blk.warn = false ∧ State.reset.blk.cfg = 0#3) ∧
  ∀ (s : State) (rest : List HostAction), s.env.program = .resetBlock :: rest →
    ∃ t, step s = .next t ∧ t.blk = State.reset.blk

/-! ## Encoding -/

/-- Command words and frames written out from the spec decode to the operation they stand for (30_encoding.md R51, R52,
R56 to R63; the words are those of the examples of R84, R86, R91 to R95, R97, R106, R120 to R122 and 95_test_vectors.md). -/
def Obligations.SpecWordsDecode : Prop :=
  decodeCommand 0x0100000000000000#64 = .ok .bufClr ∧
  decodeCommand 0x0201000000000000#64 = .ok (.bufPush 0x01#8) ∧
  decodeCommand 0x1000000000000000#64 = .ok .crcInit ∧
  decodeCommand 0x1156000000000000#64 = .ok (.crcByte 0x56#8) ∧
  decodeCommand 0x1200000000000000#64 = .ok .crcCompute ∧
  decodeCommand 0x2011021234010200#64 = .ok (.bldRdbits 0x11#8 0x02#8 0x1234#16 0x0102#16) ∧
  decodeCommand 0x2100030000000100#64 = .ok (.bldRdhold 0x00#8 0x0000#16 0x0001#16) ∧
  decodeCommand 0x2201020100000000#64 = .ok (.bldWrcoil 0x01#8 0x02#8 true) ∧
  decodeCommand 0x2305000000000000#64 = .ok (.bldWraddr 0x05#8) ∧
  decodeCommand 0x2401000000000000#64 = .ok (.bldRaw true) ∧
  decodeCommand 0x3001000000000000#64 = .ok (.decDecode 0x01#8) ∧
  decodeCommand 0x4004000000000000#64 = .ok (.cfgSet 4#3) ∧
  decodeRequest [0x01#8, 0x05#8, 0x00#8, 0x02#8, 0xFF#8, 0x00#8, 0x2D#8, 0xFA#8] =
    .ok (.reqWrcoil 0x01#8 0x02#8 true 0xFA2D#16) ∧
  decodeResponse [0x01#8, 0x01#8, 0x01#8, 0x05#8, 0x91#8, 0x8B#8] = .ok (.rspRdcoils 0x01#8 0x01#8 0x05#8 0x8B91#16)

/-- Decode and encode agree on every instruction, every operand at every value (30_encoding.md R51, R52, R56 to R63). -/
def Obligations.DecodeOfEncodeIsIdentity : Prop := ∀ i : Instr, decode (encode i) = .ok i

/-- Each packet has at most one meaning: what decodes is exactly the encoding of what it decodes to, so no bit is ignored
(30_encoding.md R51, R53; 92_eei_decisions.md D16). -/
def Obligations.DecodedPacketIsItsEncoding : Prop := ∀ (p : Packet) (i : Instr), decode p = .ok i → encode i = p

/-- 30_encoding.md R73: a command word selects the row of the opcode table whose mask and match fit, and the decoder reads
that row's operation from it and from no other word. -/
def Obligations.DecoderFollowsMatchAndMask : Prop :=
  ∀ (cw : CommandWord) (row : CommandRow), row ∈ commandRows →
    (cw &&& row.mask = row.pattern ↔ ∃ i, decodeCommand cw = .ok i ∧ i.mnemonic = row.mnemonic)

/-- 30_encoding.md R53: a command word is illegal exactly when its opcode is none of the twelve, or a must-be-zero bit of
its format is 1, or it is BLD.RDHOLD with another function code. -/
def Obligations.IllegalWordsAreThoseOfTheRule : Prop :=
  ∀ cw : CommandWord, (∃ e, decodeCommand cw = .error e) ↔
    (let op := cw.extractLsb' 56 8
     (op ∉ [0x01#8, 0x02#8, 0x10#8, 0x11#8, 0x12#8, 0x20#8, 0x21#8, 0x22#8, 0x23#8, 0x24#8, 0x30#8, 0x40#8]) ∨
     (op ∈ [0x01#8, 0x10#8, 0x12#8] ∧ cw.extractLsb' 0 56 ≠ 0#56) ∨
     (op ∈ [0x02#8, 0x11#8, 0x23#8, 0x30#8] ∧ cw.extractLsb' 0 48 ≠ 0#48) ∨
     (op ∈ [0x20#8, 0x21#8] ∧ cw.extractLsb' 0 8 ≠ 0#8) ∨
     (op = 0x22#8 ∧ (cw.extractLsb' 33 7 ≠ 0#7 ∨ cw.extractLsb' 0 32 ≠ 0#32)) ∨
     (op ∈ [0x24#8, 0x40#8] ∧ (cw.extractLsb' 51 5 ≠ 0#5 ∨ cw.extractLsb' 0 48 ≠ 0#48)) ∨
     (op = 0x24#8 ∧ cw.extractLsb' 49 2 ≠ 0#2) ∨
     (op = 0x21#8 ∧ cw.extractLsb' 40 8 ≠ 0x03#8))

/-! ## The step -/

/-- A step runs the decoded instruction: when the host's next action is a packet that decodes to `i`, the step is `exec i`
at the state with that action taken off the script (10_state.md R23, 20_memory.md R41). -/
def Obligations.StepRunsDecodedPacket : Prop :=
  ∀ (s : State) (p : Packet) (i : Instr) (rest : List HostAction),
    s.env.program = .packet p :: rest → decode p = .ok i → step s = exec i (s.setProgram rest)

/-- 30_encoding.md R53, 60_exceptions.md R147: an illegal command word writes 6 to `ERR` and changes no other register. -/
def Obligations.IllegalCommandWritesErrOnly : Prop :=
  ∀ (s : State) (cw : CommandWord) (e : DecodeError) (rest : List HostAction),
    s.env.program = .packet (.command cw) :: rest → decodeCommand cw = .error e →
    ∃ t, step s = .next t ∧ t.blk.err.code = 6#3 ∧ t.blk = { s.blk with err := .illegalCommand } ∧
      t.bufMax = s.bufMax ∧ t.env = { s.env with program := rest }

/-- With nothing on the script a step leaves the whole state, with its environment, as it is: the model's reading of 60_exceptions.md
R158, which speaks of the block (log 15, DEDUCED; the script is log 2). -/
def Obligations.IdleKeepsState : Prop := ∀ s : State, s.env.program = [] → step s = .next s

/-- Every instruction completes in one step, and no step refuses; a step faults only where the host reads what holds no
value. For the twelve operations of the block that is the spec's (93_implementation_defined.md section 1: "every operation
completes in one step"), for a register read too (10_state.md R24); that the ten wire rows complete is the model's choice (log 1),
and that XACT with `FVALID = 0` faults its reading of 45_transaction.md R137 (log 14). -/
def Obligations.StepsStopOnlyAtHostErrors : Prop :=
  (∀ (i : Instr) (s : State), ∃ t, exec i s = .next t) ∧
  (∀ (s : State) (r : Refusal), step s ≠ .refused r) ∧
  (∀ (s : State) (r : Fault), step s = .fault r →
    (∃ n rest, s.env.program = .readReg n :: rest ∧ s.blk.read n = none) ∨
    (∃ fn rest, s.env.program = .xact fn :: rest ∧ s.blk.fvalid = false))

/-! ## The CRC unit -/

/-- 41_crc.md R80: CrcBit in numbers. -/
def Obligations.CrcBitIsShiftAndConditionalXor : Prop :=
  ∀ r : U16, (crcBit r).toNat = if r.toNat % 2 = 1 then (r.toNat / 2) ^^^ 0xA001 else r.toNat / 2

/-- 41_crc.md R87: the checksum of the empty sequence. -/
def Obligations.EmptyChecksumIsAllOnes : Prop := crc16 [] = 0xFFFF#16 ∧ crcBytes [] = [0xFF#8, 0xFF#8]

/-- 41_crc.md R84: CRC.INIT, its command word and its whole next state. -/
def Obligations.CrcInitResult : Prop :=
  decodeCommand 0x1000000000000000#64 = .ok .crcInit ∧
  ∀ s : State, exec .crcInit s = .next { s with blk := { s.blk with crc := 0xFFFF#16, err := .noError } }

/-- 41_crc.md R85, R81: CRC.BYTE absorbs one byte: the byte is XORed into the register, then eight CrcBit steps. -/
def Obligations.CrcByteResult : Prop :=
  ∀ (b : Byte) (s : State), exec (.crcByte b) s =
    .next { s with blk := { s.blk with
      crc := crcBit (crcBit (crcBit (crcBit (crcBit (crcBit (crcBit (crcBit (s.blk.crc ^^^ b.setWidth 16))))))))
      err := .noError } }

/-- 41_crc.md R86, R82: CRC.COMPUTE folds the operand bytes in index order from `0xFFFF`, whatever `CRC` held, and leaves
the operand unchanged; and its command word. -/
def Obligations.CrcComputeResult : Prop :=
  decodeCommand 0x1200000000000000#64 = .ok .crcCompute ∧
  ∀ s : State, exec .crcCompute s =
    .next { s with blk := { s.blk with crc := s.blk.ibuf.foldl crcByte 0xFFFF#16, err := .noError } }

/-- 41_crc.md R89 (c): CrcByte depends on the byte only through its XOR with the low byte of the register. -/
def Obligations.CrcByteDependsThroughLowXor : Prop :=
  ∀ (r q : U16) (b c : Byte), hiByte r = hiByte q → loByte r ^^^ b = loByte q ^^^ c → crcByte r b = crcByte q c

/-- 41_crc.md R89 (b), 43_response_decoder.md R115: the last two bytes are the checksum of the bytes before them exactly
when the checksum of the whole is zero. -/
def Obligations.TrailerIsRightIffResidueIsZero : Prop :=
  ∀ raw : List Byte, 2 ≤ raw.length →
    (raw.drop (raw.length - 2) = crcBytes (raw.take (raw.length - 2)) ↔ crc16 raw = 0#16)

/-- 41_crc.md R85: from any state CRC.INIT and one CRC.BYTE for each byte, issued as command words, leave `CRC` at the
checksum of the bytes and touch nothing else but `ERR`. -/
def Obligations.StreamingGivesChecksum : Prop :=
  ∀ (s : State) (bytes : List Byte) (rest : List HostAction),
    s.env.program = op .crcInit :: bytes.map (fun b => op (.crcByte b)) ++ rest →
    Host.Core.run Sys2Proof.core (bytes.length + 1) s =
      .next { s with blk := { s.blk with crc := crc16 bytes, err := .noError }, env := { s.env with program := rest } }

/-- Frame of the CRC operations (10_state.md R10, R11): only `CRC` and `ERR` may change; every byte of both buffers reads
as before. -/
def Obligations.CrcOperationsFrame : Prop :=
  ∀ (i : Instr) (s t : State), i.isCrcOperation = true → exec i s = .next t →
    (∃ v e, t.blk = { s.blk with crc := v, err := e }) ∧ t.bufMax = s.bufMax ∧ t.env = s.env ∧
    (∀ j : Nat, t.blk.ibuf[j]? = s.blk.ibuf[j]?) ∧ (∀ j : Nat, t.blk.fbuf[j]? = s.blk.fbuf[j]?)

/-! ## Operand buffer and configuration -/

/-- 44_buffer_config.md R120: BUF.CLR, its command word and its whole next state. -/
def Obligations.BufClrResult : Prop :=
  decodeCommand 0x0100000000000000#64 = .ok .bufClr ∧
  ∀ s : State, exec .bufClr s = .next { s with blk := { s.blk with ibuf := [], err := .noError } }

/-- 44_buffer_config.md R121, 60_exceptions.md R148: BUF.PUSH with room stores the byte at index `ILEN`, keeps the bytes
below it and adds 1 to `ILEN`; on a full buffer it raises BufferOverflow: code 7, the byte is dropped, no other register
changes. -/
def Obligations.BufPushResult : Prop :=
  ∀ (b : Byte) (s : State),
    (s.bufMax ≠ some s.blk.ilen →
      ∃ t, exec (.bufPush b) s = .next t ∧ t.blk.ilen = s.blk.ilen + 1 ∧ t.blk.ibuf[s.blk.ilen]? = some b ∧
        (∀ j, j < s.blk.ilen → t.blk.ibuf[j]? = s.blk.ibuf[j]?) ∧ t.blk.err.code = 0#3 ∧
        t = { s with blk := { s.blk with ibuf := t.blk.ibuf, err := .noError } }) ∧
    (s.bufMax = some s.blk.ilen →
      ∃ t, exec (.bufPush b) s = .next t ∧ t.blk.err.code = 7#3 ∧
        t = { s with blk := { s.blk with err := .bufferOverflow } })

/-- 44_buffer_config.md R121: BUF.CLR and one BUF.PUSH for each byte, issued as command words, leave the operand buffer
holding exactly the bytes, when they fit. -/
def Obligations.LoadingWordsLoadTheOperand : Prop :=
  ∀ (s : State) (bytes : List Byte) (rest : List HostAction),
    (∀ n, s.bufMax = some n → bytes.length ≤ n) → s.env.program = loadWords bytes ++ rest →
    Host.Core.run Sys2Proof.core (bytes.length + 1) s =
      .next { s with blk := { s.blk with ibuf := bytes, err := .noError }, env := { s.env with program := rest } }

/-- 44_buffer_config.md R122, 10_state.md R21: CFG.SET writes the three bits together; a frame already built and a result
already decoded stay; and its command word. -/
def Obligations.CfgSetResult : Prop :=
  ∀ (flags : BitVec 3) (s : State),
    decodeCommand (0x40#8 ++ 0#5 ++ flags ++ 0#48) = .ok (.cfgSet flags) ∧
    exec (.cfgSet flags) s = .next { s with blk := { s.blk with cfg := flags, err := .noError } }

/-- Frame of BUF.CLR, BUF.PUSH and CFG.SET (10_state.md R10, R13; 44_buffer_config.md R120 to R122): only `IBUF`, `ILEN`, `CFG` and
`ERR` may change. BUF.CLR leaves no operand byte; BUF.PUSH leaves every byte of `IBUF` at an index other than the old `ILEN` as it
was, and on a full buffer every byte; CFG.SET leaves every byte of `IBUF` as it was; every byte of `FBUF` reads as before. -/
def Obligations.BufferAndConfigFrame : Prop :=
  ∀ (s t : State),
    (exec .bufClr s = .next t →
      (∃ v e, t.blk = { s.blk with ibuf := v, err := e }) ∧ t.bufMax = s.bufMax ∧ t.env = s.env ∧
      (∀ j : Nat, t.blk.ibuf[j]? = none) ∧ ∀ j : Nat, t.blk.fbuf[j]? = s.blk.fbuf[j]?) ∧
    (∀ b, exec (.bufPush b) s = .next t →
      (∃ v e, t.blk = { s.blk with ibuf := v, err := e }) ∧ t.bufMax = s.bufMax ∧ t.env = s.env ∧
      (∀ j : Nat, j ≠ s.blk.ilen → t.blk.ibuf[j]? = s.blk.ibuf[j]?) ∧
      (s.bufMax = some s.blk.ilen → ∀ j : Nat, t.blk.ibuf[j]? = s.blk.ibuf[j]?) ∧
      ∀ j : Nat, t.blk.fbuf[j]? = s.blk.fbuf[j]?) ∧
    (∀ flags, exec (.cfgSet flags) s = .next t →
      (∃ v e, t.blk = { s.blk with cfg := v, err := e }) ∧ t.bufMax = s.bufMax ∧ t.env = s.env ∧
      (∀ j : Nat, t.blk.ibuf[j]? = s.blk.ibuf[j]?) ∧ ∀ j : Nat, t.blk.fbuf[j]? = s.blk.fbuf[j]?)

/-! ## The frame encoder -/

/-- 42_frame_encoder.md R91, R96; 60_exceptions.md R142: BLD.RDBITS with function code 0x01 or 0x02 builds the 8-byte read
request; with any other it raises EncodingError (code 1) and leaves no frame. And its command word. -/
def Obligations.RdbitsResult : Prop :=
  ∀ (slave fn : Byte) (start count : U16) (s : State),
    decodeCommand (0x20#8 ++ slave ++ fn ++ start ++ count ++ 0#8) = .ok (.bldRdbits slave fn start count) ∧
    (fn = 0x01#8 ∨ fn = 0x02#8 →
      ∃ p : List Byte,
        p = [slave, fn, start.extractLsb' 8 8, start.extractLsb' 0 8, count.extractLsb' 8 8, count.extractLsb' 0 8] ∧
        exec (.bldRdbits slave fn start count) s =
          .next { s with blk := { s.blk with
            fbuf := p ++ [(crc16 p).extractLsb' 0 8, (crc16 p).extractLsb' 8 8]
            fvalid := true, warn := false, err := .noError } }) ∧
    (fn ≠ 0x01#8 → fn ≠ 0x02#8 →
      ∃ t, exec (.bldRdbits slave fn start count) s = .next t ∧ t.blk.err.code = 1#3 ∧ t.blk.flen = 0 ∧
        t = { s with blk := { s.blk with fbuf := [], fvalid := false, warn := false, err := .encodingError } })

/-- 42_frame_encoder.md R92: BLD.RDHOLD builds the 8-byte read request for function code 0x03, for all operands; and its command
word. -/
def Obligations.RdholdBuildsReadRequest : Prop :=
  ∀ (slave : Byte) (start count : U16) (s : State),
    decodeCommand (0x21#8 ++ slave ++ 0x03#8 ++ start ++ count ++ 0#8) = .ok (.bldRdhold slave start count) ∧
    ∃ p : List Byte,
      p = [slave, 0x03#8, start.extractLsb' 8 8, start.extractLsb' 0 8, count.extractLsb' 8 8, count.extractLsb' 0 8] ∧
      exec (.bldRdhold slave start count) s =
        .next { s with blk := { s.blk with
          fbuf := p ++ [(crc16 p).extractLsb' 0 8, (crc16 p).extractLsb' 8 8]
          fvalid := true, warn := false, err := .noError } }

/-- 42_frame_encoder.md R93, R94, R96; 60_exceptions.md R142: BLD.WRCOIL with a valid channel index (at most 3 when
`CFG.CH4 = 1`, else at most 7) builds the 8-byte write request, the coil value being 0xFF00 or 0x0000; with a greater index
it raises EncodingError (code 1) and leaves no frame. And its command word. -/
def Obligations.WrcoilResult : Prop :=
  ∀ (slave ch : Byte) (on : Bool) (s : State),
    decodeCommand (0x22#8 ++ slave ++ ch ++ 0#7 ++ BitVec.ofBool on ++ 0#32) = .ok (.bldWrcoil slave ch on) ∧
    ((ch.toNat ≤ if s.blk.cfg.getLsbD 2 then 3 else 7) →
      ∃ p : List Byte,
        p = [slave, 0x05#8, 0x00#8, ch, if on then 0xFF#8 else 0x00#8, 0x00#8] ∧
        exec (.bldWrcoil slave ch on) s =
          .next { s with blk := { s.blk with
            fbuf := p ++ [(crc16 p).extractLsb' 0 8, (crc16 p).extractLsb' 8 8]
            fvalid := true, warn := false, err := .noError } }) ∧
    ((if s.blk.cfg.getLsbD 2 then 3 else 7) < ch.toNat →
      ∃ t, exec (.bldWrcoil slave ch on) s = .next t ∧ t.blk.err.code = 1#3 ∧ t.blk.flen = 0 ∧
        t = { s with blk := { s.blk with fbuf := [], fvalid := false, warn := false, err := .encodingError } })

/-- 42_frame_encoder.md R95, 10_state.md R20: BLD.WRADDR builds the 11-byte frame for every new address, and warns exactly
for 0xFF; and its command word. -/
def Obligations.WraddrBuildsAddressFrame : Prop :=
  ∀ (new : Byte) (s : State),
    decodeCommand (0x23#8 ++ new ++ 0#48) = .ok (.bldWraddr new) ∧
    ∃ p : List Byte,
      p = [0x00#8, 0x10#8, 0x00#8, 0x00#8, 0x00#8, 0x01#8, 0x02#8, 0x00#8, new] ∧
      exec (.bldWraddr new) s =
        .next { s with blk := { s.blk with
          fbuf := p ++ [(crc16 p).extractLsb' 0 8, (crc16 p).extractLsb' 8 8]
          fvalid := true, warn := decide (new = 0xFF#8), err := .noError } }

/-- 42_frame_encoder.md R97: BLD.RAW makes the operand the frame, with the checksum after it when asked, and checks
nothing; and its command word. -/
def Obligations.RawPassesTheOperand : Prop :=
  ∀ (withCrc : Bool) (s : State),
    decodeCommand (0x24#8 ++ 0#7 ++ BitVec.ofBool withCrc ++ 0#48) = .ok (.bldRaw withCrc) ∧
    exec (.bldRaw withCrc) s =
      .next { s with blk := { s.blk with
        fbuf := if withCrc then s.blk.ibuf ++ [(crc16 s.blk.ibuf).extractLsb' 0 8, (crc16 s.blk.ibuf).extractLsb' 8 8]
          else s.blk.ibuf
        fvalid := true, warn := false, err := .noError } }

/-- 42_frame_encoder.md R91 to R95, 30_encoding.md R56 to R58: each fixed-layout builder that succeeds leaves in `FBUF` the bytes of
a well-formed frame of its own wire row. -/
def Obligations.BuildersMakeWellFormedRequests : Prop :=
  ∀ (slave ch new : Byte) (start count : U16) (on : Bool) (s t : State),
    (exec (.bldRdbits slave 0x01#8 start count) s = .next t →
      ∃ c, (Instr.reqRdcoils slave start count c).wellFormed = true ∧
        encode (.reqRdcoils slave start count c) = .request t.blk.fbuf) ∧
    (exec (.bldRdbits slave 0x02#8 start count) s = .next t →
      ∃ c, (Instr.reqRdinputs slave start count c).wellFormed = true ∧
        encode (.reqRdinputs slave start count c) = .request t.blk.fbuf) ∧
    (exec (.bldRdhold slave start count) s = .next t →
      ∃ c, (Instr.reqRdhold slave start count c).wellFormed = true ∧
        encode (.reqRdhold slave start count c) = .request t.blk.fbuf) ∧
    (exec (.bldWrcoil slave ch on) s = .next t → t.blk.fvalid = true →
      ∃ c, (Instr.reqWrcoil slave ch on c).wellFormed = true ∧
        encode (.reqWrcoil slave ch on c) = .request t.blk.fbuf) ∧
    (exec (.bldWraddr new) s = .next t →
      ∃ c, (Instr.reqWraddr new c).wellFormed = true ∧ encode (.reqWraddr new c) = .request t.blk.fbuf)

/-- 10_state.md R14: the last two bytes are the checksum of all bytes before them for every frame but those of BLD.RAW with
`appendCrc = 0`. -/
def Obligations.BuiltFramesHaveTheRightTrailer : Prop :=
  ∀ (i : Instr) (s t : State), i.isBuilder = true → i ≠ .bldRaw false → exec i s = .next t → t.blk.fvalid = true →
    2 ≤ t.blk.flen ∧ t.blk.fbuf.drop (t.blk.flen - 2) = crcBytes (t.blk.fbuf.take (t.blk.flen - 2))

/-- Frame of the builders (42_frame_encoder.md R96: "No BLD.* operation reads or writes `CRC`, `IBUF`, `ILEN`, `RTAG`, ..."):
only `FBUF`, `FLEN`, `FVALID`, `WARN` and `ERR` may change; every byte of the operand reads as before. -/
def Obligations.BuildersFrame : Prop :=
  ∀ (i : Instr) (s t : State), i.isBuilder = true → exec i s = .next t →
    (∃ f v w e, t.blk = { s.blk with fbuf := f, fvalid := v, warn := w, err := e }) ∧
    t.bufMax = s.bufMax ∧ t.env = s.env ∧ ∀ j : Nat, t.blk.ibuf[j]? = s.blk.ibuf[j]?

/-! ## The response decoder -/

/-- 43_response_decoder.md R107, R108, R118: an empty operand decodes as Timeout, an operand of one to three bytes as
Malformed, under every configuration and expected code, whatever the bytes are. -/
def Obligations.DecodeEmptyAndShort : Prop :=
  ∀ (expfn : Byte) (s : State),
    (s.blk.ilen = 0 →
      exec (.decDecode expfn) s = .next { s with blk := { s.blk with
        rtag := .timeout, bits := none, regval := none, ackAddr := none, ackVal := none, err := .noError } }) ∧
    (1 ≤ s.blk.ilen → s.blk.ilen ≤ 3 →
      exec (.decDecode expfn) s = .next { s with blk := { s.blk with
        rtag := .malformed, bits := none, regval := none, ackAddr := none, ackVal := none, err := .noError } })

/-- 43_response_decoder.md R109, R118: function code 0x01 or 0x02 gives BitStatus with the byte at index 3; four bytes
suffice, and the other bytes do not matter. -/
def Obligations.DecodeBitStatus : Prop :=
  ∀ (expfn fn v : Byte) (s : State), fn = 0x01#8 ∨ fn = 0x02#8 → s.blk.ibuf[1]? = some fn → s.blk.ibuf[3]? = some v →
    s.blk.checksPass expfn →
    exec (.decDecode expfn) s = .next { s with blk := { s.blk with
      rtag := .bitStatus, bits := some v, regval := none, ackAddr := none, ackVal := none, err := .noError } }

/-- 43_response_decoder.md R110, R118: function code 0x03 with at least five bytes gives RegisterByteValue with the byte at
index 4. -/
def Obligations.DecodeRegisterByte : Prop :=
  ∀ (expfn v : Byte) (s : State), s.blk.ibuf[1]? = some 0x03#8 → s.blk.ibuf[4]? = some v → s.blk.checksPass expfn →
    exec (.decDecode expfn) s = .next { s with blk := { s.blk with
      rtag := .registerByteValue, bits := none, regval := some v, ackAddr := none, ackVal := none, err := .noError } }

/-- 43_response_decoder.md R111, R118; 30_encoding.md R64: function code 0x05 with at least six bytes gives WriteAck with the
two big-endian fields. -/
def Obligations.DecodeWriteAck : Prop :=
  ∀ (expfn b2 b3 b4 b5 : Byte) (s : State), s.blk.ibuf[1]? = some 0x05#8 →
    s.blk.ibuf[2]? = some b2 → s.blk.ibuf[3]? = some b3 → s.blk.ibuf[4]? = some b4 → s.blk.ibuf[5]? = some b5 →
    s.blk.checksPass expfn →
    ∃ a v : U16, a.toNat = 256 * b2.toNat + b3.toNat ∧ v.toNat = 256 * b4.toNat + b5.toNat ∧
      exec (.decDecode expfn) s = .next { s with blk := { s.blk with
        rtag := .writeAck, bits := none, regval := none, ackAddr := some a, ackVal := some v, err := .noError } }

/-- 43_response_decoder.md R112, R118: with at least four bytes and none of the three arms applying, Malformed: a code that
is none of the four, 0x03 with four bytes, 0x05 with four or five; 0x10 among the first (R112). -/
def Obligations.DecodeOtherIsMalformed : Prop :=
  ∀ (expfn fn : Byte) (s : State), 4 ≤ s.blk.ilen → s.blk.ibuf[1]? = some fn →
    (fn ≠ 0x01#8 ∧ fn ≠ 0x02#8 ∧ (fn = 0x03#8 → s.blk.ilen = 4) ∧ (fn = 0x05#8 → s.blk.ilen ≤ 5)) →
    exec (.decDecode expfn) s = .next { s with blk := { s.blk with
      rtag := .malformed, bits := none, regval := none, ackAddr := none, ackVal := none, err := .noError } }

/-- 43_response_decoder.md R114: with STRICT_ECHO on and four bytes or more, another function code than the expected one is
Malformed; with STRICT_ECHO off the expected code makes no difference; and with the expected function code in the response
the option makes no difference. -/
def Obligations.StrictEchoRule : Prop :=
  ∀ (expfn other fn : Byte) (s : State),
    (s.blk.cfg.getLsbD 0 = true → 4 ≤ s.blk.ilen → s.blk.ibuf[1]? = some fn → fn ≠ expfn →
      ∃ t, exec (.decDecode expfn) s = .next t ∧ t.blk.rtag.code = 4#3 ∧ t.blk.err.code = 0#3) ∧
    (s.blk.cfg.getLsbD 0 = false → exec (.decDecode expfn) s = exec (.decDecode other) s) ∧
    (s.blk.ibuf[1]? = some expfn → ∃ (t : State) (off : BitVec 3), off = s.blk.cfg &&& 6#3 ∧
      exec (.decDecode expfn) s = .next t ∧
      exec (.decDecode expfn) (s.setBlk (s.blk.setCfg off)) = .next (t.setBlk (t.blk.setCfg off)))

/-- 43_response_decoder.md R115: with STRICT_CRC on and four bytes or more, a wrong trailer is Malformed; and the check does
not change `CRC`. -/
def Obligations.StrictCrcRule : Prop :=
  ∀ (expfn : Byte) (s : State), s.blk.cfg.getLsbD 1 = true → 4 ≤ s.blk.ilen →
    s.blk.ibuf.drop (s.blk.ilen - 2) ≠ crcBytes (s.blk.ibuf.take (s.blk.ilen - 2)) →
    ∃ t, exec (.decDecode expfn) s = .next t ∧ t.blk.rtag.code = 4#3 ∧ t.blk.err.code = 0#3 ∧ t.blk.crc = s.blk.crc

/-- 43_response_decoder.md R116, R118: DEC.DECODE always completes, with a tag from 1 to 5 and `ERR = 0`, and each payload
register holds a value exactly under its own tag, whatever the registers held before. -/
def Obligations.DecodeIsTotal : Prop :=
  ∀ (expfn : Byte) (s : State), ∃ t, exec (.decDecode expfn) s = .next t ∧
    1 ≤ t.blk.rtag.code.toNat ∧ t.blk.rtag.code.toNat ≤ 5 ∧ t.blk.err.code = 0#3 ∧ t.blk.payloadSound

/-- 43_response_decoder.md R116, R117: with both strict options off, the result is a function of `ILEN` and the bytes at
indices 1 to 5 alone: not of the slave address, later bytes, the expected code, or any register. -/
def Obligations.DefaultDecodeLooksAtFewBytes : Prop :=
  ∀ (e1 e2 : Byte) (s1 s2 t1 t2 : State),
    s1.blk.cfg.getLsbD 0 = false → s1.blk.cfg.getLsbD 1 = false →
    s2.blk.cfg.getLsbD 0 = false → s2.blk.cfg.getLsbD 1 = false →
    s1.blk.ilen = s2.blk.ilen → (∀ j, 1 ≤ j → j ≤ 5 → s1.blk.ibuf[j]? = s2.blk.ibuf[j]?) →
    exec (.decDecode e1) s1 = .next t1 → exec (.decDecode e2) s2 = .next t2 →
    t1.blk.rtag = t2.blk.rtag ∧ t1.blk.bits = t2.blk.bits ∧ t1.blk.regval = t2.blk.regval ∧
      t1.blk.ackAddr = t2.blk.ackAddr ∧ t1.blk.ackVal = t2.blk.ackVal

/-- Frame of DEC.DECODE (43_response_decoder.md R106): only `RTAG`, the payload registers and `ERR` may change; every byte of
both buffers reads as before. -/
def Obligations.DecodeFrame : Prop :=
  ∀ (expfn : Byte) (s t : State), exec (.decDecode expfn) s = .next t →
    (∃ g b r a v e, t.blk = { s.blk with rtag := g, bits := b, regval := r, ackAddr := a, ackVal := v, err := e }) ∧
    t.bufMax = s.bufMax ∧ t.env = s.env ∧
    (∀ j : Nat, t.blk.ibuf[j]? = s.blk.ibuf[j]?) ∧ (∀ j : Nat, t.blk.fbuf[j]? = s.blk.fbuf[j]?)

/-- 43_response_decoder.md R105: Unpack8 gives eight booleans, element `i` bit `i`. -/
def Obligations.UnpackGivesEightChannels : Prop :=
  ∀ b : Byte, (unpack8 b).length = 8 ∧ ∀ i, i < 8 → (unpack8 b)[i]? = some (b.toNat.testBit i)

/-- 95_test_vectors.md section 8 item 4: the device's echo of a frame of BLD.WRCOIL decodes, under every configuration, as
WriteAck of the channel index and the coil value. -/
def Obligations.CoilEchoIsAcknowledged : Prop :=
  ∀ (slave ch : Byte) (on : Bool) (s t u : State),
    exec (.bldWrcoil slave ch on) s = .next t → t.blk.fvalid = true → u.blk.ibuf = t.blk.fbuf →
    ∃ w, exec (.decDecode 0x05#8) u = .next w ∧ w.blk.rtag = .writeAck ∧
      w.blk.ackAddr = some (ch.setWidth 16) ∧ w.blk.ackVal = some (if on then 0xFF00#16 else 0x0000#16)

/-! ## Whole-machine rules -/

/-- The invariant of the machine holds at reset. -/
def Obligations.ResetMeetsInvariant : Prop := State.reset.Inv

/-- Every step keeps the invariant: the buffers within BUF_MAX and BUF_MAX + 2 (00_scope.md R7, 10_state.md R13, R14, 42
R98), no frame when `FVALID = 0` (R14), `WARN` only beside the 0xFF frame (R20), payloads under their own tags (R15 to R18),
`ERR` in {0, 1, 6, 7} (R19), the Transaction's outcome in agreement with its state (45_transaction.md R130), and a transaction that
waits for its read only on an open channel (20_memory.md R36, R42; log 23, log 24). -/
def Obligations.StepKeepsInvariant : Prop := ∀ s t : State, s.Inv → step s = .next t → t.Inv

/-- 10_state.md R11: `CRC` is written only by the three CRC operations, and by reset. -/
def Obligations.OnlyCrcOperationsWriteCrc : Prop :=
  ∀ s t : State, step s = .next t → t.blk.crc ≠ s.blk.crc →
    ∃ a rest, s.env.program = a :: rest ∧ ((∃ i, a.issues i ∧ i.isCrcOperation = true) ∨ a = .resetBlock)

/-- 10_state.md R14: a built frame is immutable: only a BLD.* operation, and reset, changes `FBUF`, `FLEN`, `FVALID`. -/
def Obligations.OnlyBuildersChangeTheFrame : Prop :=
  ∀ s t : State, step s = .next t → (t.blk.fbuf ≠ s.blk.fbuf ∨ t.blk.fvalid ≠ s.blk.fvalid) →
    ∃ a rest, s.env.program = a :: rest ∧ ((∃ i, a.issues i ∧ i.isBuilder = true) ∨ a = .resetBlock)

/-- 10_state.md R21: `CFG` is written only by CFG.SET, and by reset; the parameter BUF_MAX by nothing. -/
def Obligations.OnlyCfgSetWritesCfg : Prop :=
  ∀ s t : State, step s = .next t → t.bufMax = s.bufMax ∧
    (t.blk.cfg ≠ s.blk.cfg →
      ∃ a rest, s.env.program = a :: rest ∧ ((∃ flags, a.issues (.cfgSet flags)) ∨ a = .resetBlock))

/-- 10_state.md R15: the response registers change only when a response is decoded, and by reset. A response is decoded by
DEC.DECODE, by bytes the host's read returns, by the last part of XACT, and, as the model's choice (log 24), by a use of the link
while a transaction waits. -/
def Obligations.OnlyDecodingWritesTheResult : Prop :=
  ∀ s t : State, step s = .next t →
    (t.blk.rtag ≠ s.blk.rtag ∨ t.blk.bits ≠ s.blk.bits ∨ t.blk.regval ≠ s.blk.regval ∨
      t.blk.ackAddr ≠ s.blk.ackAddr ∨ t.blk.ackVal ≠ s.blk.ackVal) →
    ∃ a rest, s.env.program = a :: rest ∧ (a.decodesResponse s.env ∨ a = .resetBlock)

/-- 10_state.md R10, R25: an operation of the block reads and writes its registers only: its effect on them is the same in
every environment, and the environment stays as it is. -/
def Obligations.CommandsIgnoreTheEnvironment : Prop :=
  ∀ (i : Instr) (s : State) (e : Env), i.isCommand = true →
    ∃ b : Block, exec i s = .next { s with blk := b } ∧ exec i { s with env := e } = .next { blk := b, bufMax := s.bufMax, env := e }

/-! ## The host and the link -/

/-- 44_buffer_config.md R123, 10_state.md R12, R24, with the codes of R15 and 60_exceptions.md R141: a host read returns the value of
the register and changes no register; a read of what holds no value is a fault. The value is given for every register, for the
bytes of both buffers and for the views of `CRC`. That a read is an action of the script is log 16. -/
def Obligations.HostReadsChangeNothing : Prop :=
  ∀ (s : State) (r : RegName) (rest : List HostAction),
    (s.env.program = .readReg r :: rest →
      (∀ v, s.blk.read r = some v →
        step s = .next { s with env := { s.env with program := rest, lastRead := some v } }) ∧
      (s.blk.read r = none → step s = .fault (.noValue r))) ∧
    s.blk.read .crc = some s.blk.crc.toNat ∧
    s.blk.read .crcLo = some (s.blk.crc.toNat % 256) ∧ s.blk.read .crcHi = some (s.blk.crc.toNat / 256) ∧
    (∀ j (h : j < s.blk.ilen), s.blk.read (.ibufByte j) = some (s.blk.ibuf[j]'h).toNat) ∧
    (∀ j, s.blk.ilen ≤ j → s.blk.read (.ibufByte j) = none) ∧
    s.blk.read .ilen = some s.blk.ibuf.length ∧
    (∀ j (h : j < s.blk.flen), s.blk.fvalid = true → s.blk.read (.fbufByte j) = some (s.blk.fbuf[j]'h).toNat) ∧
    (∀ j, s.blk.fvalid = false ∨ s.blk.flen ≤ j → s.blk.read (.fbufByte j) = none) ∧
    s.blk.read .flen = some s.blk.fbuf.length ∧
    s.blk.read .fvalid = some (if s.blk.fvalid then 1 else 0) ∧
    s.blk.read .rtag = some (match s.blk.rtag with
      | .noResult => 0 | .bitStatus => 1 | .registerByteValue => 2 | .writeAck => 3 | .malformed => 4 | .timeout => 5) ∧
    ((∀ v, s.blk.bits = some v → s.blk.read .bits = some v.toNat) ∧ (s.blk.bits = none → s.blk.read .bits = none)) ∧
    ((∀ v, s.blk.regval = some v → s.blk.read .regval = some v.toNat) ∧
      (s.blk.regval = none → s.blk.read .regval = none)) ∧
    ((∀ v, s.blk.ackAddr = some v → s.blk.read .ackAddr = some v.toNat) ∧
      (s.blk.ackAddr = none → s.blk.read .ackAddr = none)) ∧
    ((∀ v, s.blk.ackVal = some v → s.blk.read .ackVal = some v.toNat) ∧
      (s.blk.ackVal = none → s.blk.read .ackVal = none)) ∧
    s.blk.read .err = some (match s.blk.err with
      | .noError => 0 | .encodingError => 1 | .portUnavailable => 2 | .channelError => 3 | .malformed => 4 | .timeout => 5
      | .illegalCommand => 6 | .bufferOverflow => 7) ∧
    s.blk.read .warn = some (if s.blk.warn then 1 else 0) ∧
    s.blk.read .cfg = some s.blk.cfg.toNat

/-- 45_transaction.md R129, R130, 20_memory.md R37: XACT's write hands the whole built frame to the link: on an open channel that
takes the write (free: log 6) the frame is on record and the one read comes next; otherwise ChannelError and the transaction has
ended (on a closed channel the model's choice: log 7; that nothing is recorded: log 22). No register of the block changes, unless
an earlier transaction still waited and is ended first (log 24). XACT stands in three steps (log 20). With `FVALID = 0` there is
no frame to write, and the host error of 45_transaction.md R137 and 10_state.md R24 is the fault noValue (the model's reading: log
14). -/
def Obligations.XactWritesTheWholeFrame : Prop :=
  ∀ (s u : State) (fn : Byte) (rest : List HostAction), s.env.program = .xact fn :: rest → u = settle s →
    (s.blk.fvalid = true →
      (s.env.awaiting = false → u = s) ∧
      ∃ t, step s = .next t ∧ State.FrameWritten s.blk.fbuf u t ∧ t.env.expFn = fn ∧
        t.env.program =
          if s.env.channel.isSome = true ∧ Config.writeSucceeds u.env.oracle = true then .xactRead fn :: rest else rest) ∧
    (s.blk.fvalid = false → step s = .fault (.noValue (.fbufByte 0)))

/-- 45_transaction.md R130, R131, 20_memory.md R42: a transaction that waits reads once, the first 8 at most of the bytes the line
offers (any bytes: the next free value, log 6); TimedOut when there is none of them, ResponseReceived otherwise; no register of the
block changes. Without a transaction that waits there is no read (log 23). And no
two transactions overlap: a use of the link while one waits is the same as that read, its decode, and then the use (log 24). -/
def Obligations.XactReadsAtMostEightBytes : Prop :=
  (∀ (s : State) (fn : Byte) (rest : List HostAction), s.env.program = .xactRead fn :: rest →
    (s.env.awaiting = true →
      ∃ raw, raw = (Config.channelBytes s.env.oracle).take 8 ∧ raw.length ≤ 8 ∧ step s = .next { s with
        env := { s.env with
          program := .xactDecode fn raw :: rest
          phase := if raw = [] then .timedOut else .responseReceived
          outcome := .pending
          oracle := s.env.oracle + 1 } }) ∧
    (s.env.awaiting = false → step s = .next (s.setProgram rest))) ∧
  (∀ (s : State) (a : HostAction) (rest : List HostAction),
    s.env.program = a :: rest → a.usesLink = true → s.env.awaiting = true →
    (settle s).env.awaiting = false ∧ step s = step (settle s) ∧
      Host.Core.run Sys2Proof.core 2 (s.setProgram (.xactRead s.env.expFn :: a :: rest)) = .next (settle s))

/-- 45_transaction.md R129: the last part of XACT, after its read, is the command words BUF.CLR, one BUF.PUSH for each byte,
DEC.DECODE: run one by one as operations of the block they leave the same registers, whatever the capacity (log 13); and the outcome
is the Response in `RTAG` and its payload registers. Without a read before it nothing is decoded (log 23). -/
def Obligations.XactDecodeIsItsCommandWords : Prop :=
  ∀ (s u : State) (fn : Byte) (raw : List Byte) (rest : List HostAction),
    s.env.program = .xactDecode fn raw :: rest →
    u = { s with env := { s.env with program := loadWords raw ++ op (.decDecode fn) :: rest } } →
    (s.env.phase = .responseReceived ∨ s.env.phase = .timedOut →
      ∃ t v r, step s = .next t ∧ Host.Core.run Sys2Proof.core (raw.length + 2) u = .next v ∧
        t.blk = v.blk ∧ t.env.program = v.env.program ∧ t.env.phase = .decoded ∧
        t.env.outcome = .response r ∧ t.blk.response = some r) ∧
    (s.env.phase ≠ .responseReceived → s.env.phase ≠ .timedOut → step s = .next (s.setProgram rest))

/-- 20_memory.md R36, 60_exceptions.md R143, R146, 45_transaction.md R134, 30_encoding.md R71: an open gives a channel with a
fresh transaction, or PortUnavailable with the platform's message (free: log 6; log 20). A close leaves no channel, and is
idempotent. The full host sequence is the open, and after one that succeeds XACT and the close, after one that fails nothing. No register of the
block changes, unless a transaction still waited and is ended first (log 24). The commands of R71: each runs its builder, the raw ones
after loading their bytes, and then the host sequence with its function code; after a builder that raised EncodingError nothing is
sent (log 21). -/
def Obligations.TransactionOpensFirst : Prop :=
  (∀ (s u : State) (port : String) (baud : Nat) (fn : Byte) (rest : List HostAction), u = settle s →
    (s.env.awaiting = false → u = s) ∧
    (s.env.program = .openPort port baud :: rest →
      ∃ t, step s = .next t ∧ State.PortOpened port baud u t ∧ t.env.program = rest) ∧
    (s.env.program = .closePort :: rest →
      step s = .next { u with env := { u.env with program := rest, channel := none } }) ∧
    (s.env.program = .closePort :: rest → s.env.channel = none → step s = .next (s.setProgram rest)) ∧
    (s.env.program = .transaction port baud fn :: rest →
      ∃ t, step s = .next t ∧ State.PortOpened port baud u t ∧
        t.env.program = if Config.openSucceeds u.env.oracle = true then .xact fn :: .closePort :: rest else rest) ∧
    (s.env.program = .transactionIfBuilt port baud fn :: rest →
      step s = .next (s.setProgram (if s.blk.fvalid then .transaction port baud fn :: rest else rest)))) ∧
  (∀ (s : State) (port : String) (baud : Nat) (slave new channel fn : Byte) (on : Bool) (bytes : List Byte)
      (steps : List (Byte × Bool)) (rest : List HostAction),
    let runs := fun (c : CliCommand) (i : Instr) (after : List HostAction) =>
      s.env.program = c.expand port baud ++ rest → step s = exec i (s.setProgram (after ++ rest))
    let loads := fun (c : CliCommand) (withCrc : Bool) =>
      s.env.program = c.expand port baud ++ rest → (∀ n, s.bufMax = some n → bytes.length ≤ n) →
      Host.Core.run Sys2Proof.core (bytes.length + 1) s = .next { s with
        blk := { s.blk with ibuf := bytes, err := .noError }
        env := { s.env with program := op (.bldRaw withCrc) :: .transactionIfBuilt port baud fn :: rest } }
    loads (.manualSend bytes fn) false ∧ loads (.autoCrcSend bytes fn) true ∧
    runs (.readRelayStatus slave) (.bldRdbits slave 0x01#8 0x0000#16 0x0008#16) [.transactionIfBuilt port baud 0x01#8] ∧
    runs (.readInputStatus slave) (.bldRdbits slave 0x02#8 0x0000#16 0x0008#16) [.transactionIfBuilt port baud 0x02#8] ∧
    runs .checkSlaveAddress (.bldRdhold 0x00#8 0x0000#16 0x0001#16) [.transactionIfBuilt port baud 0x03#8] ∧
    runs (.setSlaveAddress new) (.bldWraddr new) [.transactionIfBuilt port baud 0x10#8] ∧
    runs (.relayControl slave channel on) (.bldWrcoil slave (channel - 1#8) on) [.transactionIfBuilt port baud 0x05#8] ∧
    runs (.testRelaySweep slave ((channel, on) :: steps)) (.bldWrcoil slave (channel - 1#8) on)
      (.transactionIfBuilt port baud 0x05#8 :: .wait 500 :: (CliCommand.testRelaySweep slave steps).expand port baud) ∧
    (CliCommand.testRelaySweep slave []).expand port baud = [] ∧ CliCommand.detectPorts.expand port baud = [])

/-! ## The wire rows (log 1: the model gives a frame on the link the effect of the host's own rules for it) -/

/-- A request frame is the host's write of it, verbatim: on an open channel that takes the write (free: log 6) it is on record and the
transaction waits; otherwise ChannelError (on a closed channel: log 7; nothing recorded: log 22). So for every REQ row and for a frame
with no layout of the table (20_memory.md R37; 30_encoding.md R59). No register of the block changes, unless an earlier transaction
still waited and is ended first (log 24). A well-formed frame fixes the function code that is expected (45_transaction.md R136), after any
other it is free (log 11).
That a REQ row is such a write is the model's choice (log 1). -/
def Obligations.RequestFramesAreWrittenVerbatim : Prop :=
  (∀ (i : Instr) (frame : List Byte) (s u : State), encode i = .request frame → u = settle s →
    (s.env.awaiting = false → u = s) ∧
    ∃ t, exec i s = .next t ∧ State.FrameWritten frame u t ∧ t.env.program = s.env.program ∧
      (i.wellFormed = true → some t.env.expFn = frame[1]?) ∧
      (i.wellFormed = false → t.env.expFn = Config.rawExpectedFn u.env.oracle)) ∧
  (∀ (frame : List Byte) (e : DecodeError) (s u : State) (rest : List HostAction),
    s.env.program = .packet (.request frame) :: rest → decodeRequest frame = .error e → u = settle s →
    ∃ t, step s = .next t ∧ State.FrameWritten frame u t ∧ t.env.program = rest ∧
      t.env.expFn = Config.rawExpectedFn u.env.oracle)

/-- A bit-status response returned to a waiting transaction is loaded and decoded as BitStatus of its status byte, by default
or when the enabled strict checks pass, and as Malformed when an enabled check fails (43_response_decoder.md R109, R114, R115; log
1). -/
def Obligations.BitStatusFramesDecode : Prop :=
  ∀ (i : Instr) (slave byteCount status fn : Byte) (crc : U16) (raw : List Byte) (s : State),
    (i = .rspRdcoils slave byteCount status crc ∧ fn = 0x01#8 ∨ i = .rspRdinputs slave byteCount status crc ∧ fn = 0x02#8) →
    encode i = .response raw → s.env.awaiting = true → s.capacityLegal →
    ((s.blk.cfg.getLsbD 1 = true → i.wellFormed = true) → (s.blk.cfg.getLsbD 0 = true → s.env.expFn = fn) →
      exec i s = .next
        { blk := { s.blk with
            ibuf := raw, rtag := .bitStatus, bits := some status, regval := none, ackAddr := none, ackVal := none
            err := .noError }
          bufMax := s.bufMax
          env := { s.env with phase := .decoded, outcome := .response (.bitStatus status) } }) ∧
    (s.blk.cfg.getLsbD 1 = true ∧ i.wellFormed = false ∨ s.blk.cfg.getLsbD 0 = true ∧ s.env.expFn ≠ fn →
      exec i s = .next
        { blk := { s.blk with
            ibuf := raw, rtag := .malformed, bits := none, regval := none, ackAddr := none, ackVal := none, err := .noError }
          bufMax := s.bufMax
          env := { s.env with phase := .decoded, outcome := .response .malformed } })

/-- The other responses returned to a waiting transaction. 0x03 gives the low byte of the register and 0x05 the echoed address and
value, by default or when the enabled strict checks pass, and Malformed when an enabled check fails; 0x10 gives Malformed
(43_response_decoder.md R110 to R112, R114, R115; log 1). And whatever bytes arrive, with a layout of the table or without, short or
long: the first 8 of them are loaded, the registers become those of DEC.DECODE on that operand with the expected function code, and
the outcome is the Response in `RTAG` and its payload registers (30_encoding.md R69; 45_transaction.md R129, R131). -/
def Obligations.OtherResponseFramesDecode : Prop :=
  (∀ (slave byteCount hi lo : Byte) (addr value crc : U16) (s : State), s.env.awaiting = true → s.capacityLegal →
    let malformed := fun (raw : List Byte) => Host.Outcome.next (φ := Fault) (ρ := Refusal) (σ := State)
      { blk := { s.blk with
          ibuf := raw, rtag := .malformed, bits := none, regval := none, ackAddr := none, ackVal := none, err := .noError }
        bufMax := s.bufMax
        env := { s.env with phase := .decoded, outcome := .response .malformed } }
    let register := [slave, 0x03#8, byteCount, hi, lo, crc.extractLsb' 0 8, crc.extractLsb' 8 8]
    let coil := [slave, 0x05#8, addr.extractLsb' 8 8, addr.extractLsb' 0 8, value.extractLsb' 8 8, value.extractLsb' 0 8,
      crc.extractLsb' 0 8, crc.extractLsb' 8 8]
    let passes := fun (i : Instr) (fn : Byte) =>
      (s.blk.cfg.getLsbD 1 = true → i.wellFormed = true) ∧ (s.blk.cfg.getLsbD 0 = true → s.env.expFn = fn)
    (passes (.rspRdhold slave byteCount hi lo crc) 0x03#8 →
      exec (.rspRdhold slave byteCount hi lo crc) s = .next
        { blk := { s.blk with
            ibuf := register
            rtag := .registerByteValue, bits := none, regval := some lo, ackAddr := none, ackVal := none, err := .noError }
          bufMax := s.bufMax
          env := { s.env with phase := .decoded, outcome := .response (.registerByteValue lo) } }) ∧
    (¬ passes (.rspRdhold slave byteCount hi lo crc) 0x03#8 →
      exec (.rspRdhold slave byteCount hi lo crc) s = malformed register) ∧
    (passes (.rspWrcoil slave addr value crc) 0x05#8 →
      exec (.rspWrcoil slave addr value crc) s = .next
        { blk := { s.blk with
            ibuf := coil
            rtag := .writeAck, bits := none, regval := none, ackAddr := some addr, ackVal := some value, err := .noError }
          bufMax := s.bufMax
          env := { s.env with phase := .decoded, outcome := .response (.writeAck addr value) } }) ∧
    (¬ passes (.rspWrcoil slave addr value crc) 0x05#8 → exec (.rspWrcoil slave addr value crc) s = malformed coil) ∧
    exec (.rspWrreg slave addr value crc) s =
      malformed [slave, 0x10#8, addr.extractLsb' 8 8, addr.extractLsb' 0 8, value.extractLsb' 8 8, value.extractLsb' 0 8,
        crc.extractLsb' 0 8, crc.extractLsb' 8 8]) ∧
  (∀ (raw : List Byte) (s : State) (rest : List HostAction), s.env.program = .packet (.response raw) :: rest →
    s.env.awaiting = true → s.capacityLegal →
    ∃ t r, step s = .next t ∧ t.blk.ibuf = raw.take 8 ∧ t.bufMax = s.bufMax ∧
      exec (.decDecode s.env.expFn) { s with blk := { s.blk with ibuf := raw.take 8 } } = .next { s with blk := t.blk } ∧
      t.env = { s.env with program := rest, phase := .decoded, outcome := .response r } ∧ t.blk.response = some r)

/-- Frame of the wire rows (20_memory.md R30, R37; 45_transaction.md R129; log 1, log 8, log 24): a request changes no register of the
block when no transaction waits; a response, and a request that first ends a transaction that waits, change only `IBUF`, `ILEN`, the
response registers and `ERR`; a response changes nothing when no read waits for it; every byte of `FBUF` reads as before. -/
def Obligations.WireFramesFrame : Prop :=
  ∀ (i : Instr) (frame : List Byte) (s t : State), exec i s = .next t →
    (encode i = .request frame ∨ encode i = .response frame →
      (∃ q g b r a v e,
        t.blk = { s.blk with ibuf := q, rtag := g, bits := b, regval := r, ackAddr := a, ackVal := v, err := e }) ∧
      t.bufMax = s.bufMax ∧ t.env.program = s.env.program ∧ t.env.channel = s.env.channel ∧
      t.env.lastRead = s.env.lastRead ∧ ∀ j : Nat, t.blk.fbuf[j]? = s.blk.fbuf[j]?) ∧
    (encode i = .request frame → s.env.awaiting = false →
      t.blk = s.blk ∧ ∀ j : Nat, t.blk.ibuf[j]? = s.blk.ibuf[j]?) ∧
    (encode i = .response frame → t.env.sent = s.env.sent ∧ t.env.expFn = s.env.expFn ∧
      t.env.oracle = s.env.oracle ∧ (s.env.awaiting = false → t = s))
end

