-- ==== Sys2Proof/Laws/Checksum.lean ====
section
/-! SUPPORT. The shift register: each step loses nothing, so neither do eight (41_crc.md R80, R81), and a zero low byte moves
the high byte down. -/

namespace Sys2Proof.Machine

/-- The top bit after a step is the bit that was tested: the feedback constant has bit 15 set, the shift clears it. -/
theorem crcBit_top (r : U16) : (crcBit r).getLsbD 15 = r.getLsbD 0 := by
  unfold crcBit
  cases h : r.getLsbD 0 <;> simp [Config.crcPoly]

/-- The other bits after a step, read back. -/
theorem crcBit_shifted (r : U16) (i : Nat) :
    r.getLsbD (i + 1) = ((crcBit r).getLsbD i ^^ (r.getLsbD 0 && Config.crcPoly.getLsbD i)) := by
  unfold crcBit
  cases h : r.getLsbD 0 <;> simp [Nat.add_comm 1 i]

theorem crcBit_injective (r q : U16) (h : crcBit r = crcBit q) : r = q := by
  have e0 : r.getLsbD 0 = q.getLsbD 0 := by rw [← crcBit_top r, ← crcBit_top q, h]
  apply BitVec.eq_of_getLsbD_eq
  intro i hi
  cases i with
  | zero => exact e0
  | succ i => rw [crcBit_shifted r i, crcBit_shifted q i, h, e0]

theorem crcSteps_injective (n : Nat) (r q : U16) (h : crcSteps n r = crcSteps n q) : r = q := by
  induction n generalizing r q with
  | zero => exact h
  | succ n ih => exact crcBit_injective _ _ (ih _ _ h)

theorem crcSteps_zero_iff (n : Nat) (r : U16) : crcSteps n r = 0#16 ↔ r = 0#16 := by
  have hz : crcSteps n 0#16 = 0#16 := by
    induction n with
    | zero => rfl
    | succ n ih => exact ih
  exact ⟨fun h => crcSteps_injective n _ _ (h.trans hz.symm), fun h => h ▸ hz⟩

/-- The checksum absorbs a concatenation piece by piece (41_crc.md R89 (a)). -/
theorem crc16_append (s t : List Byte) : crc16 (s ++ t) = t.foldl crcByte (crc16 s) := by simp [crc16]

end Sys2Proof.Machine
end

