-- ==== Sys2Proof/Laws/Decode.lean ====
section
/-! SUPPORT. Slices of a concatenation, 16-bit fields through their two bytes, and the decoder's refusal of stray bits. -/

namespace Sys2Proof

open Machine

/-! ## Slices of a concatenation -/

/-- A slice wholly in the low part. -/
theorem slice_low {m n : Nat} (x : BitVec m) (y : BitVec n) (s l : Nat) (h : s + l ≤ n) :
    (x ++ y).extractLsb' s l = y.extractLsb' s l := by
  apply BitVec.eq_of_getLsbD_eq
  intro i hi
  have : s + i < n := by omega
  simp [BitVec.getLsbD_append, hi, this]

/-- A slice wholly in the high part. -/
theorem slice_high {m n : Nat} (x : BitVec m) (y : BitVec n) (s l : Nat) (h : n ≤ s) :
    (x ++ y).extractLsb' s l = x.extractLsb' (s - n) l := by
  apply BitVec.eq_of_getLsbD_eq
  intro i hi
  have h1 : ¬ s + i < n := by omega
  have h2 : s + i - n = s - n + i := by omega
  simp [BitVec.getLsbD_append, hi, h1, h2]

/-- The whole of a value. -/
@[simp] theorem slice_all {n : Nat} (x : BitVec n) : x.extractLsb' 0 n = x := by
  apply BitVec.eq_of_getLsbD_eq
  intro i hi
  simp [hi]

/-- Adjacent slices join. -/
theorem slice_join {n : Nat} (x : BitVec n) (s k l : Nat) :
    x.extractLsb' (s + l) k ++ x.extractLsb' s l = x.extractLsb' s (k + l) := by
  apply BitVec.eq_of_getLsbD_eq
  intro i hi
  simp only [BitVec.getLsbD_append, BitVec.getLsbD_extractLsb']
  by_cases h : i < l
  · simp [h, hi]
  · have h1 : i - l < k := by omega
    have h2 : s + l + (i - l) = s + i := by omega
    simp [h, hi, h1, h2]

/-- A one-bit slice is its bit. -/
theorem slice_bit {n : Nat} (x : BitVec n) (s : Nat) : BitVec.ofBool (x.getLsbD s) = x.extractLsb' s 1 := by
  apply BitVec.eq_of_getLsbD_eq
  intro i hi
  have : i = 0 := by omega
  subst this
  simp

/-- A one-bit field read as a bit. -/
theorem cwOn_slice (cw : CommandWord) : cwOn cw = (cw.extractLsb' 32 1).getLsbD 0 := by simp [cwOn]

theorem cwAppendCrc_slice (cw : CommandWord) : cwAppendCrc cw = (cw.extractLsb' 48 1).getLsbD 0 := by
  simp [cwAppendCrc]

@[simp] theorem ofBool_bit (b : Bool) : (BitVec.ofBool b).getLsbD 0 = b := by cases b <;> rfl

/-! ## Bytes of a 16-bit field -/

@[simp] theorem be16_hi_lo (v : U16) : be16 (hiByte v) (loByte v) = v := by
  apply BitVec.eq_of_getLsbD_eq
  intro i hi
  simp only [be16, hiByte, loByte, BitVec.getLsbD_append, BitVec.getLsbD_extractLsb']
  by_cases h : i < 8
  · simp [h]
  · have h1 : i - 8 < 8 := by omega
    have h2 : 8 + (i - 8) = i := by omega
    simp [h, h1, h2]

@[simp] theorem hiByte_be16 (h l : Byte) : hiByte (be16 h l) = h :=
  (slice_high h l 8 8 (by omega)).trans (slice_all h)

@[simp] theorem loByte_be16 (h l : Byte) : loByte (be16 h l) = l :=
  (slice_low h l 0 8 (by omega)).trans (slice_all l)

/-- A field is known by its two bytes. -/
theorem be16_eq {a b : Byte} {v : U16} (h : be16 a b = v) : a = hiByte v ∧ b = loByte v := by
  subst h
  simp

/-! ## Refusals -/

theorem ifZero_ok {ok : Bool} {i j : Instr} : ifZero ok i = .ok j ↔ ok = true ∧ i = j := by
  cases ok <;> simp [ifZero]

end Sys2Proof
end

