-- ==== Sys2Proof/Laws/State.lean ====
section
/-! SUPPORT. One lemma per field per update of the registers, of the machine and of the environment, each true by rfl. -/

namespace Sys2Proof.Machine

/-! ### Block.setCrc -/
@[simp] theorem Block.setCrc_crc (b : Block) (v : U16) : (b.setCrc v).crc = v := rfl
@[simp] theorem Block.setCrc_ibuf (b : Block) (v : U16) : (b.setCrc v).ibuf = b.ibuf := rfl
@[simp] theorem Block.setCrc_fbuf (b : Block) (v : U16) : (b.setCrc v).fbuf = b.fbuf := rfl
@[simp] theorem Block.setCrc_fvalid (b : Block) (v : U16) : (b.setCrc v).fvalid = b.fvalid := rfl
@[simp] theorem Block.setCrc_rtag (b : Block) (v : U16) : (b.setCrc v).rtag = b.rtag := rfl
@[simp] theorem Block.setCrc_bits (b : Block) (v : U16) : (b.setCrc v).bits = b.bits := rfl
@[simp] theorem Block.setCrc_regval (b : Block) (v : U16) : (b.setCrc v).regval = b.regval := rfl
@[simp] theorem Block.setCrc_ackAddr (b : Block) (v : U16) : (b.setCrc v).ackAddr = b.ackAddr := rfl
@[simp] theorem Block.setCrc_ackVal (b : Block) (v : U16) : (b.setCrc v).ackVal = b.ackVal := rfl
@[simp] theorem Block.setCrc_err (b : Block) (v : U16) : (b.setCrc v).err = b.err := rfl
@[simp] theorem Block.setCrc_warn (b : Block) (v : U16) : (b.setCrc v).warn = b.warn := rfl
@[simp] theorem Block.setCrc_cfg (b : Block) (v : U16) : (b.setCrc v).cfg = b.cfg := rfl

/-! ### Block.setIbuf -/
@[simp] theorem Block.setIbuf_crc (b : Block) (v : List Byte) : (b.setIbuf v).crc = b.crc := rfl
@[simp] theorem Block.setIbuf_ibuf (b : Block) (v : List Byte) : (b.setIbuf v).ibuf = v := rfl
@[simp] theorem Block.setIbuf_fbuf (b : Block) (v : List Byte) : (b.setIbuf v).fbuf = b.fbuf := rfl
@[simp] theorem Block.setIbuf_fvalid (b : Block) (v : List Byte) : (b.setIbuf v).fvalid = b.fvalid := rfl
@[simp] theorem Block.setIbuf_rtag (b : Block) (v : List Byte) : (b.setIbuf v).rtag = b.rtag := rfl
@[simp] theorem Block.setIbuf_bits (b : Block) (v : List Byte) : (b.setIbuf v).bits = b.bits := rfl
@[simp] theorem Block.setIbuf_regval (b : Block) (v : List Byte) : (b.setIbuf v).regval = b.regval := rfl
@[simp] theorem Block.setIbuf_ackAddr (b : Block) (v : List Byte) : (b.setIbuf v).ackAddr = b.ackAddr := rfl
@[simp] theorem Block.setIbuf_ackVal (b : Block) (v : List Byte) : (b.setIbuf v).ackVal = b.ackVal := rfl
@[simp] theorem Block.setIbuf_err (b : Block) (v : List Byte) : (b.setIbuf v).err = b.err := rfl
@[simp] theorem Block.setIbuf_warn (b : Block) (v : List Byte) : (b.setIbuf v).warn = b.warn := rfl
@[simp] theorem Block.setIbuf_cfg (b : Block) (v : List Byte) : (b.setIbuf v).cfg = b.cfg := rfl

/-! ### Block.setFrame -/
@[simp] theorem Block.setFrame_crc (b : Block) (f : List Byte) (valid : Bool) : (b.setFrame f valid).crc = b.crc := rfl
@[simp] theorem Block.setFrame_ibuf (b : Block) (f : List Byte) (valid : Bool) : (b.setFrame f valid).ibuf = b.ibuf := rfl
@[simp] theorem Block.setFrame_fbuf (b : Block) (f : List Byte) (valid : Bool) : (b.setFrame f valid).fbuf = f := rfl
@[simp] theorem Block.setFrame_fvalid (b : Block) (f : List Byte) (valid : Bool) : (b.setFrame f valid).fvalid = valid := rfl
@[simp] theorem Block.setFrame_rtag (b : Block) (f : List Byte) (valid : Bool) : (b.setFrame f valid).rtag = b.rtag := rfl
@[simp] theorem Block.setFrame_bits (b : Block) (f : List Byte) (valid : Bool) : (b.setFrame f valid).bits = b.bits := rfl
@[simp] theorem Block.setFrame_regval (b : Block) (f : List Byte) (valid : Bool) : (b.setFrame f valid).regval = b.regval := rfl
@[simp] theorem Block.setFrame_ackAddr (b : Block) (f : List Byte) (valid : Bool) : (b.setFrame f valid).ackAddr = b.ackAddr := rfl
@[simp] theorem Block.setFrame_ackVal (b : Block) (f : List Byte) (valid : Bool) : (b.setFrame f valid).ackVal = b.ackVal := rfl
@[simp] theorem Block.setFrame_err (b : Block) (f : List Byte) (valid : Bool) : (b.setFrame f valid).err = b.err := rfl
@[simp] theorem Block.setFrame_warn (b : Block) (f : List Byte) (valid : Bool) : (b.setFrame f valid).warn = b.warn := rfl
@[simp] theorem Block.setFrame_cfg (b : Block) (f : List Byte) (valid : Bool) : (b.setFrame f valid).cfg = b.cfg := rfl

/-! ### Block.setResult -/
@[simp] theorem Block.setResult_crc (b : Block) (g : RespTag) (bs rv : Option Byte) (aa av : Option U16) : (b.setResult g bs rv aa av).crc = b.crc := rfl
@[simp] theorem Block.setResult_ibuf (b : Block) (g : RespTag) (bs rv : Option Byte) (aa av : Option U16) : (b.setResult g bs rv aa av).ibuf = b.ibuf := rfl
@[simp] theorem Block.setResult_fbuf (b : Block) (g : RespTag) (bs rv : Option Byte) (aa av : Option U16) : (b.setResult g bs rv aa av).fbuf = b.fbuf := rfl
@[simp] theorem Block.setResult_fvalid (b : Block) (g : RespTag) (bs rv : Option Byte) (aa av : Option U16) : (b.setResult g bs rv aa av).fvalid = b.fvalid := rfl
@[simp] theorem Block.setResult_rtag (b : Block) (g : RespTag) (bs rv : Option Byte) (aa av : Option U16) : (b.setResult g bs rv aa av).rtag = g := rfl
@[simp] theorem Block.setResult_bits (b : Block) (g : RespTag) (bs rv : Option Byte) (aa av : Option U16) : (b.setResult g bs rv aa av).bits = bs := rfl
@[simp] theorem Block.setResult_regval (b : Block) (g : RespTag) (bs rv : Option Byte) (aa av : Option U16) : (b.setResult g bs rv aa av).regval = rv := rfl
@[simp] theorem Block.setResult_ackAddr (b : Block) (g : RespTag) (bs rv : Option Byte) (aa av : Option U16) : (b.setResult g bs rv aa av).ackAddr = aa := rfl
@[simp] theorem Block.setResult_ackVal (b : Block) (g : RespTag) (bs rv : Option Byte) (aa av : Option U16) : (b.setResult g bs rv aa av).ackVal = av := rfl
@[simp] theorem Block.setResult_err (b : Block) (g : RespTag) (bs rv : Option Byte) (aa av : Option U16) : (b.setResult g bs rv aa av).err = b.err := rfl
@[simp] theorem Block.setResult_warn (b : Block) (g : RespTag) (bs rv : Option Byte) (aa av : Option U16) : (b.setResult g bs rv aa av).warn = b.warn := rfl
@[simp] theorem Block.setResult_cfg (b : Block) (g : RespTag) (bs rv : Option Byte) (aa av : Option U16) : (b.setResult g bs rv aa av).cfg = b.cfg := rfl

/-! ### Block.setErr -/
@[simp] theorem Block.setErr_crc (b : Block) (c : Cause) : (b.setErr c).crc = b.crc := rfl
@[simp] theorem Block.setErr_ibuf (b : Block) (c : Cause) : (b.setErr c).ibuf = b.ibuf := rfl
@[simp] theorem Block.setErr_fbuf (b : Block) (c : Cause) : (b.setErr c).fbuf = b.fbuf := rfl
@[simp] theorem Block.setErr_fvalid (b : Block) (c : Cause) : (b.setErr c).fvalid = b.fvalid := rfl
@[simp] theorem Block.setErr_rtag (b : Block) (c : Cause) : (b.setErr c).rtag = b.rtag := rfl
@[simp] theorem Block.setErr_bits (b : Block) (c : Cause) : (b.setErr c).bits = b.bits := rfl
@[simp] theorem Block.setErr_regval (b : Block) (c : Cause) : (b.setErr c).regval = b.regval := rfl
@[simp] theorem Block.setErr_ackAddr (b : Block) (c : Cause) : (b.setErr c).ackAddr = b.ackAddr := rfl
@[simp] theorem Block.setErr_ackVal (b : Block) (c : Cause) : (b.setErr c).ackVal = b.ackVal := rfl
@[simp] theorem Block.setErr_err (b : Block) (c : Cause) : (b.setErr c).err = c := rfl
@[simp] theorem Block.setErr_warn (b : Block) (c : Cause) : (b.setErr c).warn = b.warn := rfl
@[simp] theorem Block.setErr_cfg (b : Block) (c : Cause) : (b.setErr c).cfg = b.cfg := rfl

/-! ### Block.setWarn -/
@[simp] theorem Block.setWarn_crc (b : Block) (w : Bool) : (b.setWarn w).crc = b.crc := rfl
@[simp] theorem Block.setWarn_ibuf (b : Block) (w : Bool) : (b.setWarn w).ibuf = b.ibuf := rfl
@[simp] theorem Block.setWarn_fbuf (b : Block) (w : Bool) : (b.setWarn w).fbuf = b.fbuf := rfl
@[simp] theorem Block.setWarn_fvalid (b : Block) (w : Bool) : (b.setWarn w).fvalid = b.fvalid := rfl
@[simp] theorem Block.setWarn_rtag (b : Block) (w : Bool) : (b.setWarn w).rtag = b.rtag := rfl
@[simp] theorem Block.setWarn_bits (b : Block) (w : Bool) : (b.setWarn w).bits = b.bits := rfl
@[simp] theorem Block.setWarn_regval (b : Block) (w : Bool) : (b.setWarn w).regval = b.regval := rfl
@[simp] theorem Block.setWarn_ackAddr (b : Block) (w : Bool) : (b.setWarn w).ackAddr = b.ackAddr := rfl
@[simp] theorem Block.setWarn_ackVal (b : Block) (w : Bool) : (b.setWarn w).ackVal = b.ackVal := rfl
@[simp] theorem Block.setWarn_err (b : Block) (w : Bool) : (b.setWarn w).err = b.err := rfl
@[simp] theorem Block.setWarn_warn (b : Block) (w : Bool) : (b.setWarn w).warn = w := rfl
@[simp] theorem Block.setWarn_cfg (b : Block) (w : Bool) : (b.setWarn w).cfg = b.cfg := rfl

/-! ### Block.setCfg -/
@[simp] theorem Block.setCfg_crc (b : Block) (v : BitVec 3) : (b.setCfg v).crc = b.crc := rfl
@[simp] theorem Block.setCfg_ibuf (b : Block) (v : BitVec 3) : (b.setCfg v).ibuf = b.ibuf := rfl
@[simp] theorem Block.setCfg_fbuf (b : Block) (v : BitVec 3) : (b.setCfg v).fbuf = b.fbuf := rfl
@[simp] theorem Block.setCfg_fvalid (b : Block) (v : BitVec 3) : (b.setCfg v).fvalid = b.fvalid := rfl
@[simp] theorem Block.setCfg_rtag (b : Block) (v : BitVec 3) : (b.setCfg v).rtag = b.rtag := rfl
@[simp] theorem Block.setCfg_bits (b : Block) (v : BitVec 3) : (b.setCfg v).bits = b.bits := rfl
@[simp] theorem Block.setCfg_regval (b : Block) (v : BitVec 3) : (b.setCfg v).regval = b.regval := rfl
@[simp] theorem Block.setCfg_ackAddr (b : Block) (v : BitVec 3) : (b.setCfg v).ackAddr = b.ackAddr := rfl
@[simp] theorem Block.setCfg_ackVal (b : Block) (v : BitVec 3) : (b.setCfg v).ackVal = b.ackVal := rfl
@[simp] theorem Block.setCfg_err (b : Block) (v : BitVec 3) : (b.setCfg v).err = b.err := rfl
@[simp] theorem Block.setCfg_warn (b : Block) (v : BitVec 3) : (b.setCfg v).warn = b.warn := rfl
@[simp] theorem Block.setCfg_cfg (b : Block) (v : BitVec 3) : (b.setCfg v).cfg = v := rfl

/-! ### State -/
@[simp] theorem State.setBlk_blk (s : State) (b : Block) : (s.setBlk b).blk = b := rfl
@[simp] theorem State.setBlk_bufMax (s : State) (b : Block) : (s.setBlk b).bufMax = s.bufMax := rfl
@[simp] theorem State.setBlk_env (s : State) (b : Block) : (s.setBlk b).env = s.env := rfl
@[simp] theorem State.setEnv_blk (s : State) (e : Env) : (s.setEnv e).blk = s.blk := rfl
@[simp] theorem State.setEnv_bufMax (s : State) (e : Env) : (s.setEnv e).bufMax = s.bufMax := rfl
@[simp] theorem State.setEnv_env (s : State) (e : Env) : (s.setEnv e).env = e := rfl
@[simp] theorem State.setProgram_blk (s : State) (p : List HostAction) : (s.setProgram p).blk = s.blk := rfl
@[simp] theorem State.setProgram_bufMax (s : State) (p : List HostAction) : (s.setProgram p).bufMax = s.bufMax := rfl
@[simp] theorem State.setProgram_program (s : State) (p : List HostAction) : (s.setProgram p).env.program = p := rfl
@[simp] theorem State.setProgram_channel (s : State) (p : List HostAction) :
    (s.setProgram p).env.channel = s.env.channel := rfl
@[simp] theorem State.setProgram_sent (s : State) (p : List HostAction) : (s.setProgram p).env.sent = s.env.sent := rfl
@[simp] theorem State.setProgram_expFn (s : State) (p : List HostAction) : (s.setProgram p).env.expFn = s.env.expFn := rfl
@[simp] theorem State.setProgram_phase (s : State) (p : List HostAction) : (s.setProgram p).env.phase = s.env.phase := rfl
@[simp] theorem State.setProgram_outcome (s : State) (p : List HostAction) :
    (s.setProgram p).env.outcome = s.env.outcome := rfl
@[simp] theorem State.setProgram_lastRead (s : State) (p : List HostAction) :
    (s.setProgram p).env.lastRead = s.env.lastRead := rfl
@[simp] theorem State.setProgram_oracle (s : State) (p : List HostAction) :
    (s.setProgram p).env.oracle = s.env.oracle := rfl
@[simp] theorem State.setBlk_setBlk (s : State) (a b : Block) : (s.setBlk a).setBlk b = s.setBlk b := rfl
@[simp] theorem State.setBlk_setProgram (s : State) (b : Block) (p : List HostAction) :
    (s.setBlk b).setProgram p = (s.setProgram p).setBlk b := rfl
@[simp] theorem State.setProgram_setProgram (s : State) (p q : List HostAction) :
    (s.setProgram p).setProgram q = s.setProgram q := rfl

/-! ### The fetch -/
theorem step_nil (s : State) (h : s.env.program = []) : step s = .next s := by
  simp [step, h]

theorem step_cons (s : State) (a : HostAction) (rest : List HostAction) (h : s.env.program = a :: rest) :
    step s = runAction a (s.setProgram rest) := by
  simp [step, h]

end Sys2Proof.Machine
end

