-- ==== Sys2Proof/Laws/Ops.lean ====
section
/-! SUPPORT. What each shared operation does, said once: buffers, completing and raising, the builders' common result,
loading an operand, decoding a response. -/

namespace Sys2Proof.Machine

/-! ## Buffers -/

@[simp] theorem memRead_all (buf : List Byte) : memRead buf 0 buf.length = buf := by simp [memRead]

@[simp] theorem memWrite_end (buf v : List Byte) : memWrite buf buf.length v = buf ++ v := by simp [memWrite]

@[simp] theorem memWrite_nil (v : List Byte) : memWrite [] 0 v = v := by simp [memWrite]

/-- A write leaves every byte below it alone. -/
theorem memWrite_below (buf v : List Byte) (i j : Nat) (hj : j < i) (hi : i ≤ buf.length) :
    (memWrite buf i v)[j]? = buf[j]? := by
  have h1 : j < (buf.take i).length := by simp; omega
  simp only [memWrite, List.append_assoc]
  rw [List.getElem?_append_left h1, List.getElem?_take_of_lt hj]

@[simp] theorem Block.operand_eq (b : Block) : b.operand = b.ibuf := by simp [Block.operand, Block.ilen]

@[simp] theorem Block.frame_eq (b : Block) : b.frame = b.fbuf := by simp [Block.frame, Block.flen]

/-! ## Completing and raising: only `ERR` is written -/

theorem complete_eq (b : Block) : complete b = { b with err := .noError } := rfl

theorem raise_eq (c : Cause) (b : Block) : raise c b = { b with err := c } := rfl

theorem raiseEncodingError_eq (b : Block) :
    raiseEncodingError b = { b with fbuf := [], fvalid := false, warn := false, err := .encodingError } := rfl

theorem succeedWith_eq (f : List Byte) (w : Bool) (b : Block) :
    succeedWith f w b = { b with fbuf := f, fvalid := true, warn := w, err := .noError } := by
  simp [succeedWith, complete, Block.setErr, Block.setWarn, Block.setFrame]

/-! ## The operand buffer -/

theorem clearOperand_eq (b : Block) : clearOperand b = { b with ibuf := [], err := .noError } := rfl

theorem pushOperand_full (v : Byte) (b : Block) : pushOperand (some b.ilen) v b = { b with err := .bufferOverflow } := by
  simp [pushOperand, raise, Block.setErr]

theorem pushOperand_room (m : Option Nat) (v : Byte) (b : Block) (h : m ≠ some b.ilen) :
    pushOperand m v b = { b with ibuf := b.ibuf ++ [v], err := .noError } := by
  rw [pushOperand, if_neg h]
  simp [complete, Block.setErr, Block.setIbuf, Block.ilen]

/-- Everything BUF.PUSH can do. -/
theorem pushOperand_cases (m : Option Nat) (v : Byte) (b : Block) :
    (m = some b.ilen ∧ pushOperand m v b = { b with err := .bufferOverflow }) ∨
    (m ≠ some b.ilen ∧ pushOperand m v b = { b with ibuf := b.ibuf ++ [v], err := .noError }) := by
  by_cases h : m = some b.ilen
  · exact .inl ⟨h, by rw [h, pushOperand_full]⟩
  · exact .inr ⟨h, pushOperand_room m v b h⟩

/-- Pushing bytes for which there is room appends them. -/
theorem foldl_push_room (m : Option Nat) (raw : List Byte) (b : Block)
    (h : ∀ n, m = some n → b.ilen + raw.length ≤ n) :
    raw.foldl (fun b v => pushOperand m v b) { b with err := .noError } =
      { b with ibuf := b.ibuf ++ raw, err := .noError } := by
  induction raw generalizing b with
  | nil => simp
  | cons v raw ih =>
    have hne : m ≠ some b.ilen := fun hm => by
      have := h _ hm
      simp at this
    rw [List.foldl_cons, pushOperand_room m v { b with err := .noError } hne]
    have := ih { b with ibuf := b.ibuf ++ [v] } (fun n hn => by
      have := h n hn
      simp [Block.ilen] at *
      omega)
    simpa using this

/-- Loading a sequence that fits leaves exactly it in the operand buffer (44_buffer_config.md R121). -/
theorem loadOperand_fits (m : Option Nat) (raw : List Byte) (b : Block) (h : ∀ n, m = some n → raw.length ≤ n) :
    loadOperand m raw b = { b with ibuf := raw, err := .noError } := by
  have := foldl_push_room m raw { b with ibuf := [] } (fun n hn => by simpa [Block.ilen] using h n hn)
  simpa [loadOperand, clearOperand_eq] using this

/-- Loading changes the operand buffer and `ERR` only, whether the sequence fits or not, and loads no more bytes than it
is given. -/
theorem loadOperand_frame (m : Option Nat) (raw : List Byte) (b : Block) :
    ∃ s e, loadOperand m raw b = { b with ibuf := s, err := e } ∧ s.length ≤ raw.length ∧
      (e = .noError ∨ e = .bufferOverflow) := by
  have key : ∀ (raw : List Byte) (b : Block), (b.err = .noError ∨ b.err = .bufferOverflow) →
      ∃ s e, raw.foldl (fun b v => pushOperand m v b) b = { b with ibuf := s, err := e } ∧
        s.length ≤ b.ibuf.length + raw.length ∧ (e = .noError ∨ e = .bufferOverflow) := by
    intro raw
    induction raw with
    | nil => intro b he; exact ⟨b.ibuf, b.err, rfl, by simp, he⟩
    | cons v raw ih =>
      intro b _
      obtain ⟨-, h⟩ | ⟨-, h⟩ := pushOperand_cases m v b
      · obtain ⟨s, e, h1, h2, h3⟩ := ih _ (.inr (congrArg Block.err h))
        refine ⟨s, e, ?_, ?_, h3⟩
        · rw [List.foldl_cons, h1, h]
        · rw [h] at h2; simp at *; omega
      · obtain ⟨s, e, h1, h2, h3⟩ := ih _ (.inl (congrArg Block.err h))
        refine ⟨s, e, ?_, ?_, h3⟩
        · rw [List.foldl_cons, h1, h]
        · rw [h] at h2; simp at *; omega
  obtain ⟨s, e, h1, h2, h3⟩ := key raw (clearOperand b) (.inl rfl)
  exact ⟨s, e, h1, by simpa [clearOperand_eq] using h2, h3⟩

/-! ## The response decoder -/

@[simp] theorem Block.responseFor_eq (b : Block) (fn : Byte) :
    b.responseFor fn = decodeRaw b.strictEcho b.strictCrc fn b.ibuf := by simp [Block.responseFor]

theorem decodeRaw_nil (e c : Bool) (fn : Byte) : decodeRaw e c fn [] = .timeout := rfl

theorem decodeRaw_short (e c : Bool) (fn : Byte) (raw : List Byte) (h0 : raw ≠ []) (h4 : raw.length < 4) :
    decodeRaw e c fn raw = .malformed := by
  simp [decodeRaw, h0, h4]

/-- Every result is one of the five, and `noResult` is none of their tags (43_response_decoder.md R116). -/
theorem Response.tag_ne_noResult (r : Response) : r.tag ≠ .noResult := by cases r <;> simp [Response.tag]

@[simp] theorem writeResult_rtag (r : Response) (b : Block) : (writeResult r b).rtag = r.tag := by
  cases r <;> rfl

/-- Writing a result touches `RTAG` and the payload registers only. -/
theorem writeResult_frame (r : Response) (b : Block) :
    ∃ g bs rv aa av, writeResult r b = b.setResult g bs rv aa av := by
  cases r <;> exact ⟨_, _, _, _, _, rfl⟩

/-- A result written leaves nothing of an earlier one (43_response_decoder.md R118). -/
theorem writeResult_setResult (r : Response) (b : Block) (g : RespTag) (bs rv : Option Byte) (aa av : Option U16) :
    writeResult r (b.setResult g bs rv aa av) = writeResult r b := by
  cases r <;> rfl

theorem decodeOperand_eq (fn : Byte) (b : Block) :
    decodeOperand fn b = { writeResult (decodeRaw b.strictEcho b.strictCrc fn b.ibuf) b with err := .noError } := by
  simp [decodeOperand, complete, Block.setErr]

/-! ## The link -/

theorem Env.write_taken (e : Env) (a : Bool) (f : List Byte) (h : e.takesWrite a = true) :
    e.write a f = { e with sent := e.sent ++ [f], phase := .frameSent, outcome := .pending } := by
  simp [Env.write, h]

theorem Env.write_failed (e : Env) (a : Bool) (f : List Byte) (h : e.takesWrite a = false) :
    e.write a f = { e with phase := .channelError, outcome := .channelError } := by
  simp [Env.write, h]

theorem Env.takesWrite_closed (e : Env) (a : Bool) (h : e.channel = none) : e.takesWrite a = false := by
  simp [Env.takesWrite, h]

/-- The end of a transaction whose bytes fit the operand buffer. -/
theorem finishTransaction_fits (fn : Byte) (raw : List Byte) (s : State)
    (h : ∀ n, s.bufMax = some n → raw.length ≤ n) :
    finishTransaction fn raw s =
      (s.setBlk (decodeOperand fn (s.blk.setIbuf raw))).setEnv
        { s.env with
          phase := .decoded
          outcome := .response (decodeRaw s.blk.strictEcho s.blk.strictCrc fn raw) } := by
  have hd : decodeOperand fn { s.blk with ibuf := raw, err := .noError } = decodeOperand fn (s.blk.setIbuf raw) := by
    rw [decodeOperand_eq, decodeOperand_eq]
    simp only [Block.strictEcho, Block.strictCrc, Block.setIbuf]
    generalize decodeRaw _ _ fn raw = r
    cases r <;> rfl
  simp only [finishTransaction, loadOperand_fits _ _ _ h, hd, Block.responseFor_eq]
  rfl

end Sys2Proof.Machine
end

