-- ==== Sys2Proof/Laws/PerInstr.lean ====
section
/-! SUPPORT. The family EncodingShape: at which level each instruction is encoded (30_encoding.md R50) and, on the wire, the
length and the function code of its frame (R56 to R63, R68, R73). One lemma per constructor. -/

namespace Sys2Proof.Laws.EncodingShape

/-- The interface a packet stands at. -/
inductive Level where
  | command
  | request
  | response
  deriving DecidableEq, Repr

def level : Packet → Level
  | .command _ => .command
  | .request _ => .request
  | .response _ => .response

/-- The bytes of a frame; a command word has none. -/
def frameOf : Packet → List Byte
  | .command _ => []
  | .request f => f
  | .response f => f

/-- The table's kind, and for a wire row its length in bytes and its byte 1. -/
def expected : Instr → Level × Nat × Option Byte
  | .bufClr | .bufPush _ | .crcInit | .crcByte _ | .crcCompute => (.command, 0, none)
  | .bldRdbits _ _ _ _ | .bldRdhold _ _ _ | .bldWrcoil _ _ _ | .bldWraddr _ | .bldRaw _ => (.command, 0, none)
  | .decDecode _ | .cfgSet _ => (.command, 0, none)
  | .reqRdcoils _ _ _ _ => (.request, 8, some 0x01#8)
  | .reqRdinputs _ _ _ _ => (.request, 8, some 0x02#8)
  | .reqRdhold _ _ _ _ => (.request, 8, some 0x03#8)
  | .reqWrcoil _ _ _ _ => (.request, 8, some 0x05#8)
  | .reqWraddr _ _ => (.request, 11, some 0x10#8)
  | .rspRdcoils _ _ _ _ => (.response, 6, some 0x01#8)
  | .rspRdinputs _ _ _ _ => (.response, 6, some 0x02#8)
  | .rspRdhold _ _ _ _ _ => (.response, 7, some 0x03#8)
  | .rspWrcoil _ _ _ _ => (.response, 8, some 0x05#8)
  | .rspWrreg _ _ _ _ => (.response, 8, some 0x10#8)

/-- The encoding is at its level, with its length and its function code. -/
def Statement (i : Instr) : Prop :=
  (level (encode i), (frameOf (encode i)).length, (frameOf (encode i))[1]?) = expected i

theorem bufClr : Statement (.bufClr) := rfl
theorem bufPush (a : Byte) : Statement (.bufPush a) := rfl
theorem crcInit : Statement (.crcInit) := rfl
theorem crcByte (a : Byte) : Statement (.crcByte a) := rfl
theorem crcCompute : Statement (.crcCompute) := rfl
theorem bldRdbits (a : Byte) (b : Byte) (c : U16) (d : U16) : Statement (.bldRdbits a b c d) := rfl
theorem bldRdhold (a : Byte) (b : U16) (c : U16) : Statement (.bldRdhold a b c) := rfl
theorem bldWrcoil (a : Byte) (b : Byte) (c : Bool) : Statement (.bldWrcoil a b c) := rfl
theorem bldWraddr (a : Byte) : Statement (.bldWraddr a) := rfl
theorem bldRaw (a : Bool) : Statement (.bldRaw a) := rfl
theorem decDecode (a : Byte) : Statement (.decDecode a) := rfl
theorem cfgSet (a : BitVec 3) : Statement (.cfgSet a) := rfl
theorem reqRdcoils (a : Byte) (b : U16) (c : U16) (d : U16) : Statement (.reqRdcoils a b c d) := rfl
theorem reqRdinputs (a : Byte) (b : U16) (c : U16) (d : U16) : Statement (.reqRdinputs a b c d) := rfl
theorem reqRdhold (a : Byte) (b : U16) (c : U16) (d : U16) : Statement (.reqRdhold a b c d) := rfl
theorem reqWrcoil (a : Byte) (b : Byte) (c : Bool) (d : U16) : Statement (.reqWrcoil a b c d) := rfl
theorem reqWraddr (a : Byte) (b : U16) : Statement (.reqWraddr a b) := rfl
theorem rspRdcoils (a : Byte) (b : Byte) (c : Byte) (d : U16) : Statement (.rspRdcoils a b c d) := rfl
theorem rspRdinputs (a : Byte) (b : Byte) (c : Byte) (d : U16) : Statement (.rspRdinputs a b c d) := rfl
theorem rspRdhold (a : Byte) (b : Byte) (c : Byte) (d : Byte) (e : U16) : Statement (.rspRdhold a b c d e) := rfl
theorem rspWrcoil (a : Byte) (b : U16) (c : U16) (d : U16) : Statement (.rspWrcoil a b c d) := rfl
theorem rspWrreg (a : Byte) (b : U16) (c : U16) (d : U16) : Statement (.rspWrreg a b c d) := rfl

end Sys2Proof.Laws.EncodingShape
end

