-- ==== Sys2Proof/Laws/Sound.lean ====
section
/-! SUPPORT. Every operation on the buffers and registers keeps them sound: the buffers stay within their capacity, an
invalid frame stays empty, a payload holds a value exactly under its tag. -/

namespace Sys2Proof.Machine

theorem Block.reset_sound : Block.reset.Sound none where
  fits := trivial
  frame := fun _ => rfl
  warn := fun h => by simp [Block.reset] at h
  payload := by simp [Block.payloadSound, Block.reset]
  err := .inl rfl

/-- Soundness looks at `CRC` and `CFG` nowhere. -/
theorem Block.Sound.setCrc {b : Block} {m : Option Nat} (h : b.Sound m) (v : U16) : (b.setCrc v).Sound m :=
  ⟨by cases m <;> exact h.fits, h.frame, h.warn, h.payload, h.err⟩

theorem Block.Sound.setCfg {b : Block} {m : Option Nat} (h : b.Sound m) (v : BitVec 3) : (b.setCfg v).Sound m :=
  ⟨by cases m <;> exact h.fits, h.frame, h.warn, h.payload, h.err⟩

theorem Block.Sound.complete {b : Block} {m : Option Nat} (h : b.Sound m) : (complete b).Sound m :=
  ⟨by cases m <;> exact h.fits, h.frame, h.warn, h.payload, .inl rfl⟩

theorem Block.Sound.raise {b : Block} {m : Option Nat} (h : b.Sound m) {c : Cause}
    (hc : c = .encodingError ∨ c = .illegalCommand ∨ c = .bufferOverflow) : (raise c b).Sound m :=
  ⟨by cases m <;> exact h.fits, h.frame, h.warn, h.payload, .inr hc⟩

theorem Block.Sound.raiseEncodingError {b : Block} {m : Option Nat} (h : b.Sound m) :
    (raiseEncodingError b).Sound m := by
  refine ⟨?_, fun _ => rfl, fun hw => ?_, h.payload, .inr (.inl rfl)⟩
  · cases m with
    | none => trivial
    | some n => exact ⟨h.fits.1, h.fits.2.1, Nat.zero_le _⟩
  · simp [raiseEncodingError_eq] at hw

/-- A frame that fits, with `WARN` as 10_state.md R20 allows. -/
theorem Block.Sound.succeedWith {b : Block} {m : Option Nat} (h : b.Sound m) {f : List Byte} {w : Bool}
    (hf : ∀ n, m = some n → f.length ≤ n + 2) (hw : w = true → f = appendCrc (writeAddrPayload 0xFF#8)) :
    (succeedWith f w b).Sound m := by
  rw [succeedWith_eq]
  refine ⟨?_, fun hv => by simp at hv, fun hw' => ⟨rfl, hw hw'⟩, h.payload, .inl rfl⟩
  cases m with
  | none => trivial
  | some n => exact ⟨h.fits.1, h.fits.2.1, hf n rfl⟩

/-- An operand sequence that fits. -/
theorem Block.Sound.setIbuf {b : Block} {m : Option Nat} (h : b.Sound m) {s : List Byte}
    (hs : ∀ n, m = some n → s.length ≤ n) : (b.setIbuf s).Sound m := by
  refine ⟨?_, h.frame, h.warn, h.payload, h.err⟩
  cases m with
  | none => trivial
  | some n => exact ⟨h.fits.1, hs n rfl, h.fits.2.2⟩

theorem Block.Sound.clearOperand {b : Block} {m : Option Nat} (h : b.Sound m) : (clearOperand b).Sound m :=
  (h.setIbuf (by simp)).complete

theorem Block.Sound.pushOperand {b : Block} {m : Option Nat} (h : b.Sound m) (v : Byte) :
    (pushOperand m v b).Sound m := by
  unfold Machine.pushOperand
  split
  · exact h.raise (.inr (.inr rfl))
  · rename_i hne
    refine (h.setIbuf fun n hn => ?_).complete
    subst hn
    have hle : b.ilen ≤ n := h.fits.2.1
    have : b.ilen ≠ n := fun e => hne (congrArg some e.symm)
    simp [Block.ilen] at *
    omega

theorem Block.Sound.loadOperand {b : Block} {m : Option Nat} (h : b.Sound m) (raw : List Byte) :
    (loadOperand m raw b).Sound m := by
  have key : ∀ (raw : List Byte) (b : Block), b.Sound m →
      (raw.foldl (fun b v => Machine.pushOperand m v b) b).Sound m := by
    intro raw
    induction raw with
    | nil => intro b hb; exact hb
    | cons v raw ih => intro b hb; exact ih _ (hb.pushOperand v)
  exact key raw _ h.clearOperand

theorem Block.Sound.writeResult {b : Block} {m : Option Nat} (h : b.Sound m) (r : Response) :
    (writeResult r b).Sound m := by
  cases r <;>
    exact ⟨by cases m <;> exact h.fits, h.frame, h.warn, by simp [Block.payloadSound, Machine.writeResult], h.err⟩

theorem Block.Sound.decodeOperand {b : Block} {m : Option Nat} (h : b.Sound m) (fn : Byte) :
    (decodeOperand fn b).Sound m := (h.writeResult _).complete

/-! ## Lengths (42_frame_encoder.md R90, R98) -/

@[simp] theorem crcBytes_length (p : List Byte) : (crcBytes p).length = 2 := rfl

@[simp] theorem appendCrc_length (p : List Byte) : (appendCrc p).length = p.length + 2 := by simp [appendCrc]

@[simp] theorem readPayload_length (slave fn : Byte) (start count : U16) :
    (readPayload slave fn start count).length = 6 := rfl

@[simp] theorem writeCoilPayload_length (slave ch : Byte) (on : Bool) : (writeCoilPayload slave ch on).length = 6 := rfl

@[simp] theorem writeAddrPayload_length (new : Byte) : (writeAddrPayload new).length = 9 := rfl

/-- The trailer AppendCrc makes passes the trailer test. -/
@[simp] theorem trailerOk_appendCrc (p : List Byte) : trailerOk (appendCrc p) = true := by
  simp [trailerOk, appendCrc]

/-! ## The environment -/

theorem Env.outcomeSound_initial : Env.initial.outcomeSound := by simp [Env.outcomeSound, Env.initial]

theorem Env.write_outcomeSound (e : Env) (a : Bool) (f : List Byte) : (e.write a f).outcomeSound := by
  cases h : e.takesWrite a
  · simp [e.write_failed a f h, Env.outcomeSound]
  · simp [e.write_taken a f h, Env.outcomeSound]

/-- A write leaves a transaction waiting on an open channel only. -/
theorem Env.write_linkSound (e : Env) (a : Bool) (f : List Byte) : (e.write a f).linkSound := by
  cases h : e.takesWrite a
  · rw [e.write_failed a f h]
    exact fun h => by cases h
  · rw [e.write_taken a f h]
    simp only [Env.takesWrite, Bool.and_eq_true] at h
    exact fun _ => h.1

theorem openChannel_linkSound (p : String) (b : Nat) (e : Env) : (openChannel p b e).linkSound := by
  unfold openChannel
  split <;> exact fun h => by cases h

theorem openChannel_outcomeSound (p : String) (b : Nat) (e : Env) : (openChannel p b e).outcomeSound := by
  unfold openChannel
  split <;> simp [Env.outcomeSound]

end Sys2Proof.Machine
end

