-- ==== Sys2Proof/Laws/Step.lean ====
section
/-! SUPPORT. Runs of several steps, and what the operations of the host and the link can do, said once: the write, the read,
the end of a transaction, a frame sent, a frame received. -/

namespace Sys2Proof.Machine

/-! ## Runs -/

theorem run_zero (s : State) : Host.Core.run Sys2Proof.core 0 s = .next s := rfl

theorem run_next (M : Host.Core) (n : Nat) (s t : M.State) (h : M.step s = .next t) : M.run (n + 1) s = M.run n t := by
  simp only [Host.Core.run, h]

theorem run_succ (n : Nat) (s t : State) (h : step s = .next t) :
    Host.Core.run Sys2Proof.core (n + 1) s = Host.Core.run Sys2Proof.core n t :=
  run_next Sys2Proof.core n s t h

/-! ## The link -/

/-- The end of a transaction changes the operand, the response registers and `ERR` only. -/
theorem finishTransaction_frame (fn : Byte) (raw : List Byte) (s : State) :
    ∃ q g b r a v e, (finishTransaction fn raw s).blk =
      { s.blk with ibuf := q, rtag := g, bits := b, regval := r, ackAddr := a, ackVal := v, err := e } := by
  obtain ⟨q, e, h, -, -⟩ := loadOperand_frame s.bufMax raw s.blk
  simp only [finishTransaction, State.setEnv, State.setBlk, h, decodeOperand_eq]
  generalize decodeRaw _ _ _ _ = r
  cases r <;> exact ⟨_, _, _, _, _, _, _, rfl⟩

/-- Nothing is received when no read waits. -/
theorem receiveFrame_idle (raw : List Byte) (s : State) (h : s.env.awaiting = false) : receiveFrame raw s = s := by
  simp [receiveFrame, h]

theorem receiveFrame_waiting (raw : List Byte) (s : State) (h : s.env.awaiting = true) :
    receiveFrame raw s = finishTransaction s.env.expFn (raw.take Config.readBudget) s := by
  simp [receiveFrame, h]

/-- A frame received changes the operand, the response registers and `ERR` only. -/
theorem receiveFrame_frame (raw : List Byte) (s : State) :
    ∃ q g b r a v e, (receiveFrame raw s).blk =
      { s.blk with ibuf := q, rtag := g, bits := b, regval := r, ackAddr := a, ackVal := v, err := e } := by
  unfold receiveFrame
  split
  · exact finishTransaction_frame _ _ _
  · exact ⟨s.blk.ibuf, s.blk.rtag, s.blk.bits, s.blk.regval, s.blk.ackAddr, s.blk.ackVal, s.blk.err, rfl⟩

@[simp] theorem receiveFrame_bufMax (raw : List Byte) (s : State) : (receiveFrame raw s).bufMax = s.bufMax := by
  unfold receiveFrame
  split <;> rfl

/-! ## Turn-taking -/

theorem settle_idle (s : State) (h : s.env.awaiting = false) : settle s = s := by simp [settle, h]

theorem settle_waiting (s : State) (h : s.env.awaiting = true) :
    settle s = finishTransaction s.env.expFn s.env.readBytes (s.setEnv { s.env with oracle := s.env.oracle + 1 }) := by
  simp [settle, h]

/-- Afterwards no transaction waits. -/
@[simp] theorem settle_not_awaiting (s : State) : (settle s).env.awaiting = false := by
  unfold settle
  split
  · rfl
  · simp_all

@[simp] theorem settle_settle (s : State) : settle (settle s) = settle s := settle_idle _ (settle_not_awaiting s)

/-- Ending a transaction that waits changes the operand, the response registers and `ERR` only. -/
theorem settle_frame (s : State) :
    ∃ q g b r a v e, (settle s).blk =
      { s.blk with ibuf := q, rtag := g, bits := b, regval := r, ackAddr := a, ackVal := v, err := e } := by
  unfold settle
  split
  · exact finishTransaction_frame _ _ _
  · exact ⟨s.blk.ibuf, s.blk.rtag, s.blk.bits, s.blk.regval, s.blk.ackAddr, s.blk.ackVal, s.blk.err, rfl⟩

@[simp] theorem settle_fbuf (s : State) : (settle s).blk.fbuf = s.blk.fbuf := by
  obtain ⟨_, _, _, _, _, _, _, h⟩ := settle_frame s
  rw [h]

@[simp] theorem settle_fvalid (s : State) : (settle s).blk.fvalid = s.blk.fvalid := by
  obtain ⟨_, _, _, _, _, _, _, h⟩ := settle_frame s
  rw [h]

@[simp] theorem settle_bufMax (s : State) : (settle s).bufMax = s.bufMax := by unfold settle; split <;> rfl
@[simp] theorem settle_program (s : State) : (settle s).env.program = s.env.program := by unfold settle; split <;> rfl
@[simp] theorem settle_channel (s : State) : (settle s).env.channel = s.env.channel := by unfold settle; split <;> rfl
@[simp] theorem settle_sent (s : State) : (settle s).env.sent = s.env.sent := by unfold settle; split <;> rfl
@[simp] theorem settle_lastRead (s : State) : (settle s).env.lastRead = s.env.lastRead := by unfold settle; split <;> rfl

/-- The script plays no part in it. -/
theorem settle_setProgram (s : State) (p : List HostAction) : settle (s.setProgram p) = (settle s).setProgram p := by
  show (if s.env.awaiting then _ else _) = State.setProgram (if s.env.awaiting then _ else _) p
  split <;> rfl

/-- A write that an open channel takes. -/
theorem sendFrame_taken (fn : Option Byte) (f : List Byte) (s : State) (hc : s.env.channel.isSome = true)
    (hw : Config.writeSucceeds (settle s).env.oracle = true) :
    sendFrame fn f s = (settle s).setEnv { (settle s).env with
      sent := s.env.sent ++ [f]
      phase := .frameSent
      outcome := .pending
      expFn := fn.getD (Config.rawExpectedFn (settle s).env.oracle)
      oracle := (settle s).env.oracle + 1 } := by
  have h : (settle s).env.takesWrite (Config.writeSucceeds (settle s).env.oracle) = true := by
    simp [Env.takesWrite, hc, hw]
  simp only [sendFrame, Env.write_taken _ _ _ h, settle_sent]

/-- A write that fails. -/
theorem sendFrame_failed (fn : Option Byte) (f : List Byte) (s : State)
    (h : ¬ (s.env.channel.isSome = true ∧ Config.writeSucceeds (settle s).env.oracle = true)) :
    sendFrame fn f s = (settle s).setEnv { (settle s).env with
      phase := .channelError
      outcome := .channelError
      expFn := fn.getD (Config.rawExpectedFn (settle s).env.oracle)
      oracle := (settle s).env.oracle + 1 } := by
  have h' : (settle s).env.takesWrite (Config.writeSucceeds (settle s).env.oracle) = false := by
    rw [Bool.eq_false_iff]
    simpa [Env.takesWrite] using h
  simp only [sendFrame, Env.write_failed _ _ _ h']

/-! A write writes no register beyond those of a transaction ended first, and leaves the script and the channel. -/

@[simp] theorem sendFrame_blk (fn : Option Byte) (f : List Byte) (s : State) : (sendFrame fn f s).blk = (settle s).blk := rfl
@[simp] theorem sendFrame_bufMax (fn : Option Byte) (f : List Byte) (s : State) :
    (sendFrame fn f s).bufMax = s.bufMax := settle_bufMax s
@[simp] theorem sendFrame_program (fn : Option Byte) (f : List Byte) (s : State) :
    (sendFrame fn f s).env.program = s.env.program := settle_program s
@[simp] theorem sendFrame_channel (fn : Option Byte) (f : List Byte) (s : State) :
    (sendFrame fn f s).env.channel = s.env.channel := settle_channel s
@[simp] theorem sendFrame_lastRead (fn : Option Byte) (f : List Byte) (s : State) :
    (sendFrame fn f s).env.lastRead = s.env.lastRead := settle_lastRead s

/-! ## The decoder's tests, passed -/

/-- With four bytes or more and the enabled checks passed, the arms decide. -/
theorem decodeRaw_passed {e c : Bool} {fn f : Byte} {raw : List Byte} (h4 : 4 ≤ raw.length)
    (hc : c = true → trailerOk raw = true) (hf : raw[1]? = some f) (he : e = true → f = fn) :
    decodeRaw e c fn raw = decodeArms raw h4 := by
  obtain ⟨_, rfl⟩ := List.getElem?_eq_some_iff.mp hf
  unfold decodeRaw
  rw [if_neg (by omega), dif_neg (by omega), if_neg, if_neg]
  · rintro ⟨h, h'⟩
    exact h' (he h)
  · rintro ⟨h, h'⟩
    rw [hc h] at h'
    cases h'

end Sys2Proof.Machine
end

