-- ==== Sys2Proof/Tests/Slice0.lean ====
section
/-! SUPPORT. Tests: ill-formed terms refused, words written out from the spec's encodings decoded, one step of each
instruction against the spec's own vectors, and for each statement with hypotheses a witness that meets them. Expected
values come from spec/95_test_vectors.md (section numbers below) or the rule named, never from the model. -/

namespace Sys2Proof.Tests

open Sys2Proof Sys2Proof.Machine

set_option maxRecDepth 20000

/-! ## States -/

/-- The bytes named by numbers. -/
def bytes (l : List Nat) : List Byte := l.map (BitVec.ofNat 8 ·)

/-- The reset state with this operand, configuration and capacity. -/
def st (operand : List Nat) (cfg : BitVec 3) (cap : Option Nat := none) : State :=
  { State.reset with blk := (Block.reset.setIbuf (bytes operand)).setCfg cfg, bufMax := cap }

/-- The registers after an outcome. -/
def blkOf (o : Host.Outcome State Fault Refusal) : Option Block :=
  match o with
  | .next t => some t.blk
  | .fault _ => none
  | .refused _ => none

/-- The environment after an outcome. -/
def envOf (o : Host.Outcome State Fault Refusal) : Option Env :=
  match o with
  | .next t => some t.env
  | .fault _ => none
  | .refused _ => none

/-- Whether an outcome is a fault. -/
def faultOf (o : Host.Outcome State Fault Refusal) : Option Fault :=
  match o with
  | .next _ => none
  | .fault r => some r
  | .refused _ => none

/-- What a packet decodes to. -/
def read (p : Packet) : Option Instr :=
  match decode p with
  | .ok i => some i
  | .error _ => none

/-- Why a packet is refused. -/
def refusal (p : Packet) : Option DecodeError :=
  match decode p with
  | .ok _ => none
  | .error e => some e

/-- An open channel with a read that waits for an answer to function code `fn`. -/
def waiting (fn : Byte) (cfg : BitVec 3) (cap : Option Nat := none) : State :=
  (st [] cfg cap).setEnv { Env.initial with channel := some ⟨"COM1", 9600⟩, phase := .frameSent, expFn := fn }

/-- An idle open channel. -/
def opened : State := (st [] 0#3).setEnv { Env.initial with channel := some ⟨"COM1", 9600⟩ }

/-- A state with this script. -/
def scripted (program : List HostAction) (s : State) : State := s.setProgram program

/-- The frame of 95_test_vectors.md S4. -/
def coilFrame : List Byte := bytes [0x01, 0x05, 0x00, 0x02, 0xFF, 0x00, 0x2D, 0xFA]

/-- The least capacity, every buffer full: 9 operand bytes and an 11-byte frame, with its warning (00_scope.md R7). -/
def brimful : State :=
  { blk := { Block.reset with
      ibuf := bytes [1, 2, 3, 4, 5, 6, 7, 8, 9]
      fbuf := appendCrc (writeAddrPayload 0xFF#8)
      fvalid := true
      warn := true
      rtag := .bitStatus
      bits := some 0x05#8 }
    bufMax := some 9
    env := Env.initial }

/-! ## Well-formed terms: each check refuses an ill-formed one -/

/-- Trailer not the checksum (30_encoding.md R54). -/
theorem test_wf_bad_trailer : (Instr.reqRdcoils 0x01#8 0x0000#16 0x0008#16 0xCC3E#16).wellFormed = false := by decide
theorem test_wf_swapped_trailer : (Instr.rspRdcoils 0x01#8 0x01#8 0x05#8 0x918B#16).wellFormed = false := by decide
/-- Channel index 8 with a right trailer: only the channel check can refuse it (10_state.md R28). -/
theorem test_wf_channel_eight : (Instr.reqWrcoil 0x01#8 0x08#8 true
    (crc16 (writeCoilPayload 0x01#8 0x08#8 true))).wellFormed = false := by decide
theorem test_wf_channel_seven : (Instr.reqWrcoil 0x01#8 0x07#8 true 0xFB3D#16).wellFormed = true := by decide

/-! ## Words written out from the spec's encodings (30_encoding.md R51, R52, R56 to R63): one for each constructor -/

theorem test_word_bufClr : read (.command (0b00000001#8 ++ 0#56)) = some .bufClr := by decide
theorem test_word_bufPush : read (.command (0b00000010#8 ++ 0b10100101#8 ++ 0#48)) = some (.bufPush 0xA5#8) := by decide
theorem test_word_crcInit : read (.command (0b00010000#8 ++ 0#56)) = some .crcInit := by decide
theorem test_word_crcByte : read (.command (0b00010001#8 ++ 0b01010110#8 ++ 0#48)) = some (.crcByte 0x56#8) := by decide
theorem test_word_crcCompute : read (.command (0b00010010#8 ++ 0#56)) = some .crcCompute := by decide
theorem test_word_bldRdbits :
    read (.command (0b00100000#8 ++ 0b00010001#8 ++ 0b00000010#8 ++ 0b0001001000110100#16 ++ 0b0000000100000010#16 ++ 0#8))
      = some (.bldRdbits 0x11#8 0x02#8 0x1234#16 0x0102#16) := by decide
theorem test_word_bldRdhold :
    read (.command (0b00100001#8 ++ 0b00000000#8 ++ 0b00000011#8 ++ 0b0000000000000000#16 ++ 0b0000000000000001#16 ++ 0#8))
      = some (.bldRdhold 0x00#8 0x0000#16 0x0001#16) := by decide
theorem test_word_bldWrcoil :
    read (.command (0b00100010#8 ++ 0b00000001#8 ++ 0b00000010#8 ++ 0b0000000#7 ++ 0b1#1 ++ 0#32))
      = some (.bldWrcoil 0x01#8 0x02#8 true) := by decide
theorem test_word_bldWraddr : read (.command (0b00100011#8 ++ 0b11111111#8 ++ 0#48)) = some (.bldWraddr 0xFF#8) := by decide
theorem test_word_bldRaw :
    read (.command (0b00100100#8 ++ 0b0000000#7 ++ 0b1#1 ++ 0#48)) = some (.bldRaw true) := by decide
theorem test_word_decDecode :
    read (.command (0b00110000#8 ++ 0b00000101#8 ++ 0#48)) = some (.decDecode 0x05#8) := by decide
theorem test_word_cfgSet :
    read (.command (0b01000000#8 ++ 0b00000#5 ++ 0b110#3 ++ 0#48)) = some (.cfgSet 6#3) := by decide
/-- Big-endian fields, trailer low byte first (section 3.1, row 4). -/
theorem test_word_reqRdcoils : read (.request (bytes [0x02, 0x01, 0x00, 0x10, 0x00, 0x10, 0x3C, 0x30])) =
    some (.reqRdcoils 0x02#8 0x0010#16 0x0010#16 0x303C#16) := by decide
theorem test_word_reqRdinputs : read (.request (bytes [0x11, 0x02, 0x12, 0x34, 0x01, 0x02, 0xBE, 0x7D])) =
    some (.reqRdinputs 0x11#8 0x1234#16 0x0102#16 0x7DBE#16) := by decide
theorem test_word_reqRdhold : read (.request (bytes [0x00, 0x03, 0x00, 0x00, 0x00, 0x01, 0x85, 0xDB])) =
    some (.reqRdhold 0x00#8 0x0000#16 0x0001#16 0xDB85#16) := by decide
theorem test_word_reqWrcoil : read (.request (bytes [0x01, 0x05, 0x00, 0x02, 0x00, 0x00, 0x6C, 0x0A])) =
    some (.reqWrcoil 0x01#8 0x02#8 false 0x0A6C#16) := by decide
theorem test_word_reqWraddr :
    read (.request (bytes [0x00, 0x10, 0x00, 0x00, 0x00, 0x01, 0x02, 0x00, 0x05, 0x6B, 0xC3])) =
    some (.reqWraddr 0x05#8 0xC36B#16) := by decide
theorem test_word_rspRdcoils : read (.response (bytes [0x01, 0x01, 0x01, 0x05, 0x91, 0x8B])) =
    some (.rspRdcoils 0x01#8 0x01#8 0x05#8 0x8B91#16) := by decide
theorem test_word_rspRdinputs : read (.response (bytes [0x01, 0x02, 0x01, 0xA5, 0x61, 0xF3])) =
    some (.rspRdinputs 0x01#8 0x01#8 0xA5#8 0xF361#16) := by decide
theorem test_word_rspRdhold : read (.response (bytes [0x00, 0x03, 0x02, 0x12, 0x34, 0x88, 0xF3])) =
    some (.rspRdhold 0x00#8 0x02#8 0x12#8 0x34#8 0xF388#16) := by decide
theorem test_word_rspWrcoil : read (.response coilFrame) =
    some (.rspWrcoil 0x01#8 0x0002#16 0xFF00#16 0xFA2D#16) := by decide
theorem test_word_rspWrreg : read (.response (bytes [0x00, 0x10, 0x00, 0x00, 0x00, 0x01, 0x00, 0x18])) =
    some (.rspWrreg 0x00#8 0x0000#16 0x0001#16 0x1800#16) := by decide

/-! ## Illegal words (section 6) and frames without a layout -/

theorem test_illegal_opcode : refusal (.command 0x5000000000000000#64) = some .unknownOpcode := by decide
theorem test_illegal_mbz_z : refusal (.command 0x0100000000000001#64) = some .mustBeZeroSet := by decide
theorem test_illegal_mbz_b : refusal (.command 0x3001000000010000#64) = some .mustBeZeroSet := by decide
theorem test_illegal_mbz_r : refusal (.command 0x2001010000000801#64) = some .mustBeZeroSet := by decide
theorem test_illegal_mbz_c : refusal (.command 0x2201020200000000#64) = some .mustBeZeroSet := by decide
theorem test_illegal_mbz_f : refusal (.command 0x4008000000000000#64) = some .mustBeZeroSet := by decide
theorem test_illegal_raw : refusal (.command 0x2403000000000000#64) = some .mustBeZeroSet := by decide
theorem test_illegal_rdhold : refusal (.command 0x2100040000000100#64) = some .rdholdFunction := by decide
/-- A coil value that is neither 0xFF00 nor 0x0000 is no write-coil request (30_encoding.md R57). -/
theorem test_no_layout : refusal (.request (bytes [0x01, 0x05, 0x00, 0x02, 0xFF, 0x01, 0x2D, 0xFA])) =
    some .unknownLayout := by decide
theorem test_illegal_word_writes_err :
    blkOf (runPacket (.command 0x2201080100000001#64) (st [1, 2] 4#3)) =
      some ((st [1, 2] 4#3).blk.setErr .illegalCommand) := by decide

/-! ## The table's numbering and the fetch -/

theorem test_table_command : decodeTableWord 64 0x2201020100000000 = some (.bldWrcoil 0x01#8 0x02#8 true) := by decide
theorem test_table_request_pattern :
    decodeTableWord 64 0x0101000000083DCC = some (.reqRdcoils 0x01#8 0x0000#16 0x0008#16 0xCC3D#16) := by decide
theorem test_table_response_pattern :
    decodeTableWord 48 0x01010105918B = some (.rspRdcoils 0x01#8 0x01#8 0x05#8 0x8B91#16) := by decide
/-- The same bytes counted from the least significant end. -/
theorem test_table_response_low_first :
    decodeTableWord 48 0x8B9105010101 = some (.rspRdcoils 0x01#8 0x01#8 0x05#8 0x8B91#16) := by decide
theorem test_fetch_runs_command :
    (blkOf (step (State.reset.withFetchWord 64 0x4007000000000000))).map (·.cfg) = some 7#3 := by decide
theorem test_fetch_runs_request :
    (envOf (step (State.reset.withFetchWord 64 0x0101000000083DCC))).map (fun e => (e.expFn, e.oracle, e.program)) =
      some (0x01#8, 1, []) := by decide
/-- A number of another width that is no frame is no command either (30_encoding.md R51). -/
theorem test_table_no_frame : decodeTableWord 88 0x0100000000000000 = none := by decide
theorem test_fetch_runs_response :
    (blkOf (step (State.reset.withFetchWord 48 0x01010105918B))).map (·.bits) = some (some 0x05#8) := by decide

/-! ## CRC unit (sections 2.1 to 2.4) -/

theorem test_crcBit : [crcBit 0x0001#16, crcBit 0xFFFF#16, crcBit 0xFFFE#16, crcBit 0x8001#16] =
    [0xA001#16, 0xDFFE#16, 0x7FFF#16, 0xE001#16] := by decide
theorem test_crc16_check : crc16 (bytes [0x31, 0x32, 0x33, 0x34, 0x35, 0x36, 0x37, 0x38, 0x39]) = 0x4B37#16 := by decide
theorem test_crcInit : (blkOf (exec .crcInit ((st [] 0#3).setBlk (Block.reset.setCrc 0x1234#16)))).map (·.crc) =
    some 0xFFFF#16 := by decide
theorem test_crcByte :
    (blkOf (exec (.crcByte 0x56#8) ((st [] 0#3).setBlk (Block.reset.setCrc 0x1234#16)))).map (·.crc) =
      some 0xE993#16 := by decide
theorem test_crcByte_zero : (blkOf (exec (.crcByte 0x00#8) (st [] 0#3))).map (·.crc) = some 0x40BF#16 := by decide
theorem test_crcCompute :
    (blkOf (exec .crcCompute (st [0xFF, 0x0F, 0x00, 0x00, 0x00, 0x08] 0#3))).map (·.crc) = some 0xD341#16 := by decide
theorem test_crcCompute_empty :
    (blkOf (exec .crcCompute ((st [] 0#3).setBlk (Block.reset.setCrc 0x1234#16)))).map (·.crc) = some 0xFFFF#16 := by decide

/-! ## Frame encoder (sections 3.1 to 3.5) -/

theorem test_bldRdbits : (blkOf (exec (.bldRdbits 0x11#8 0x02#8 0x1234#16 0x0102#16) (st [] 0#3))).map (·.fbuf) =
    some (bytes [0x11, 0x02, 0x12, 0x34, 0x01, 0x02, 0xBE, 0x7D]) := by decide
theorem test_bldRdbits_error :
    (blkOf (exec (.bldRdbits 0x01#8 0x03#8 0x0000#16 0x0001#16) brimful)).map
      (fun b => (b.err.code, b.fvalid, b.flen, b.warn)) = some (1#3, false, 0, false) := by decide
theorem test_bldRdhold : (blkOf (exec (.bldRdhold 0x00#8 0x0000#16 0x0001#16) (st [] 0#3))).map (·.fbuf) =
    some (bytes [0x00, 0x03, 0x00, 0x00, 0x00, 0x01, 0x85, 0xDB]) := by decide
theorem test_bldWrcoil : (blkOf (exec (.bldWrcoil 0x01#8 0x07#8 true) (st [] 0#3))).map (·.fbuf) =
    some (bytes [0x01, 0x05, 0x00, 0x07, 0xFF, 0x00, 0x3D, 0xFB]) := by decide
theorem test_bldWrcoil_ch4 :
    (blkOf (exec (.bldWrcoil 0x01#8 0x04#8 true) (st [] 4#3))).map (fun b => (b.err.code, b.fvalid)) =
      some (1#3, false) := by decide
theorem test_bldWraddr : (blkOf (exec (.bldWraddr 0x05#8) brimful)).map (fun b => (b.fbuf, b.warn)) =
    some (bytes [0x00, 0x10, 0x00, 0x00, 0x00, 0x01, 0x02, 0x00, 0x05, 0x6B, 0xC3], false) := by decide
theorem test_bldWraddr_warns : (blkOf (exec (.bldWraddr 0xFF#8) (st [] 0#3))).map (fun b => (b.fbuf, b.warn)) =
    some (bytes [0x00, 0x10, 0x00, 0x00, 0x00, 0x01, 0x02, 0x00, 0xFF, 0xEB, 0x80], true) := by decide
theorem test_bldRaw_empty : (blkOf (exec (.bldRaw true) (st [] 0#3))).map (·.fbuf) = some (bytes [0xFF, 0xFF]) := by decide
theorem test_bldRaw_plain :
    (blkOf (exec (.bldRaw false) (st [0x01, 0x05, 0x00, 0x02, 0xFF, 0x00, 0x12, 0x34] 0#3))).map (·.fbuf) =
      some (bytes [0x01, 0x05, 0x00, 0x02, 0xFF, 0x00, 0x12, 0x34]) := by decide

/-! ## Response decoder (sections 4.1, 4.2) -/

/-- The result of a decode: tag code and the four payload registers. -/
def result (o : Host.Outcome State Fault Refusal) : Option (BitVec 3 × Option Byte × Option Byte × Option U16 × Option U16) :=
  (blkOf o).map fun b => (b.rtag.code, b.bits, b.regval, b.ackAddr, b.ackVal)

/-- A 4-byte buffer whose last two bytes are the checksum of the first two passes the strict check (section 4.2). -/
theorem test_decDecode_strict : result (exec (.decDecode 0x01#8) (st [0x01, 0x01, 0xC1, 0xE0] 2#3)) =
    some (1#3, some 0xE0#8, none, none, none) := by decide
/-- The acknowledgement of an address assignment has no arm (section 4.1). -/
theorem test_decDecode_wrreg :
    result (exec (.decDecode 0x10#8) (st [0x00, 0x10, 0x00, 0x00, 0x00, 0x01, 0x00, 0x18] 3#3)) =
      some (4#3, none, none, none, none) := by decide

/-! ## Operand buffer and configuration (section 5) -/

theorem test_bufClr : (blkOf (exec .bufClr (st [1, 2, 3, 4, 5, 6] 0#3))).map (fun b => (b.ilen, b.err)) =
    some (0, .noError) := by decide
theorem test_bufPush : (blkOf (exec (.bufPush 0xFF#8) (st [1] 0#3))).map (·.ibuf) = some (bytes [0x01, 0xFF]) := by decide
theorem test_bufPush_full : (blkOf (exec (.bufPush 0x00#8) brimful)).map (fun b => (b.err.code, b.ibuf)) =
    some (7#3, bytes [1, 2, 3, 4, 5, 6, 7, 8, 9]) := by decide
theorem test_cfgSet : (blkOf (exec (.cfgSet 4#3) (st [] 3#3))).map (·.cfg) = some 4#3 := by decide

/-! ## Wire rows (log 1; the frames are those of sections 3 and 4) -/

/-- What a request leaves that the free values do not touch, and what is on record when the write succeeds. -/
def sentOf (i : Instr) : Option (Byte × List (List Byte)) :=
  match encode i, envOf (exec i opened) with
  | .request f, some e => some (e.expFn, (opened.env.write true f).sent)
  | _, _ => none

theorem test_reqRdcoils : sentOf (.reqRdcoils 0x01#8 0x0000#16 0x0008#16 0xCC3D#16) =
    some (0x01#8, [bytes [0x01, 0x01, 0x00, 0x00, 0x00, 0x08, 0x3D, 0xCC]]) := by decide
theorem test_reqRdinputs : sentOf (.reqRdinputs 0x11#8 0x1234#16 0x0102#16 0x7DBE#16) =
    some (0x02#8, [bytes [0x11, 0x02, 0x12, 0x34, 0x01, 0x02, 0xBE, 0x7D]]) := by decide
theorem test_reqRdhold : sentOf (.reqRdhold 0x00#8 0x0000#16 0x0001#16 0xDB85#16) =
    some (0x03#8, [bytes [0x00, 0x03, 0x00, 0x00, 0x00, 0x01, 0x85, 0xDB]]) := by decide
theorem test_reqWrcoil : sentOf (.reqWrcoil 0x01#8 0x02#8 true 0xFA2D#16) = some (0x05#8, [coilFrame]) := by decide
theorem test_reqWraddr : sentOf (.reqWraddr 0x05#8 0xC36B#16) =
    some (0x10#8, [bytes [0x00, 0x10, 0x00, 0x00, 0x00, 0x01, 0x02, 0x00, 0x05, 0x6B, 0xC3]]) := by decide
/-- A right trailer with channel index 8: a raw frame, whose function code is not byte 1 (91_not_in_source.md N12). -/
theorem test_reqWrcoil_raw :
    expectedFor (.reqWrcoil 0x01#8 0x08#8 true (crc16 (writeCoilPayload 0x01#8 0x08#8 true))) 0x05#8 = none := by decide
/-- The write succeeds when the free value says so: the frame is on record and the transaction waits (20_memory.md R37). -/
theorem test_req_taken (h : Config.writeSucceeds 0 = true) :
    (envOf (exec (.reqWrcoil 0x01#8 0x02#8 true 0xFA2D#16) opened)).map (fun e => (e.sent, e.phase)) =
      some ([coilFrame], .frameSent) := by
  show some ((sendFrame _ _ opened).env.sent, (sendFrame _ _ opened).env.phase) = _
  rw [sendFrame_taken _ _ opened rfl h]
  decide
/-- And fails when it says so (60_exceptions.md R146). -/
theorem test_req_failed (h : Config.writeSucceeds 0 = false) :
    (envOf (exec (.reqWrcoil 0x01#8 0x02#8 true 0xFA2D#16) opened)).map (fun e => (e.sent, e.phase)) =
      some ([], .channelError) := by
  show some ((sendFrame _ _ opened).env.sent, (sendFrame _ _ opened).env.phase) = _
  rw [sendFrame_failed _ _ opened (fun hc => by
    have h' := hc.2
    rw [show (settle opened).env.oracle = 0 from rfl, h] at h'
    cases h')]
  decide
/-- No channel is open: ChannelError, nothing sent (log 7). -/
theorem test_req_closed :
    (envOf (exec (.reqRdcoils 0x01#8 0x0000#16 0x0008#16 0xCC3D#16) State.reset)).map
      (fun e => (e.sent, e.outcome)) = some ([], .channelError) := by decide
theorem test_rspRdcoils : result (exec (.rspRdcoils 0x01#8 0x01#8 0x05#8 0x8B91#16) (waiting 0x01#8 3#3)) =
    some (1#3, some 0x05#8, none, none, none) := by decide
theorem test_rspRdinputs : result (exec (.rspRdinputs 0x01#8 0x01#8 0xA5#8 0xF361#16) (waiting 0x02#8 3#3)) =
    some (1#3, some 0xA5#8, none, none, none) := by decide
theorem test_rspRdhold : result (exec (.rspRdhold 0x00#8 0x02#8 0x12#8 0x34#8 0xF388#16) (waiting 0x03#8 3#3)) =
    some (2#3, none, some 0x34#8, none, none) := by decide
theorem test_rspWrcoil : result (exec (.rspWrcoil 0x01#8 0x0002#16 0xFF00#16 0xFA2D#16) (waiting 0x05#8 3#3)) =
    some (3#3, none, none, some 0x0002#16, some 0xFF00#16) := by decide
theorem test_rspWrreg : result (exec (.rspWrreg 0x00#8 0x0000#16 0x0001#16 0x1800#16) (waiting 0x10#8 3#3)) =
    some (4#3, none, none, none, none) := by decide
/-- A wrong echo under STRICT_ECHO (section 4.2). -/
theorem test_rsp_strict_echo : result (exec (.rspRdinputs 0x01#8 0x01#8 0x05#8 0x8B61#16) (waiting 0x01#8 1#3)) =
    some (4#3, none, none, none, none) := by decide

/-! ## Host reads -/

theorem test_read_empty_faults :
    faultOf (step (scripted [.readReg .bits] State.reset)) = some (.noValue .bits) := by decide
theorem test_read_crc :
    (envOf (step (scripted [.readReg .crcLo] State.reset))).map (·.lastRead) = some (some 0xFF) := by decide

/-! ## Witnesses: for each statement with hypotheses, a state and operands that meet all of them -/

/-- ResetRegisterValues, on a machine far from reset. -/
theorem test_witness_reset : (scripted [.resetBlock, .wait 1] brimful).env.program = .resetBlock :: [.wait 1] := by decide

/-- DecodedPacketIsItsEncoding: a packet of each level. -/
theorem test_witness_decoded :
    (read (.command 0x4007000000000000#64)).isSome = true ∧ (read (.request coilFrame)).isSome = true ∧
      (read (.response coilFrame)).isSome = true := by decide

/-- DecoderFollowsMatchAndMask: a row, a word that fits it and one that does not. -/
theorem test_witness_row :
    let row : CommandRow := ⟨"CFG.SET", 0x4000000000000000#64, 0xFFF8FFFFFFFFFFFF#64⟩
    row ∈ commandRows ∧ 0x4007000000000000#64 &&& row.mask = row.pattern ∧
      0x4008000000000000#64 &&& row.mask ≠ row.pattern := by decide

/-- StepRunsDecodedPacket. -/
theorem test_witness_step :
    (scripted [.packet (.command 0x1200000000000000#64)] brimful).env.program =
      .packet (.command 0x1200000000000000#64) :: [] ∧
    read (.command 0x1200000000000000#64) = some .crcCompute := by decide

/-- IllegalCommandWritesErrOnly. -/
theorem test_witness_illegal :
    (scripted [.packet (.command 0xFF00000000000000#64)] brimful).env.program =
      .packet (.command 0xFF00000000000000#64) :: [] ∧
    refusal (.command 0xFF00000000000000#64) = some .unknownOpcode := by decide

/-- IdleKeepsState. -/
theorem test_witness_idle : brimful.env.program = [] := by decide

/-- StepsStopOnlyAtHostErrors: both faults happen. -/
theorem test_witness_faults :
    faultOf (step (scripted [.readReg (.ibufByte 9)] brimful)) = some (.noValue (.ibufByte 9)) ∧
    faultOf (step (scripted [.xact 0x01#8] opened)) = some (.noValue (.fbufByte 0)) := by decide

/-- CrcByteDependsThroughLowXor: two different registers and bytes (section 2.2, rows 5 and 6). -/
theorem test_witness_low_xor :
    hiByte 0x0000#16 = hiByte 0x0001#16 ∧ loByte 0x0000#16 ^^^ 0x01#8 = loByte 0x0001#16 ^^^ 0x00#8 ∧
      crcByte 0x0000#16 0x01#8 = 0xC0C1#16 := by decide

/-- TrailerIsRightIffResidueIsZero: at two bytes and beyond, both sides of the equivalence (section 2.3). -/
theorem test_witness_residue :
    2 ≤ (bytes [0xFF, 0xFF]).length ∧ crc16 (bytes [0xFF, 0xFF]) = 0#16 ∧
    2 ≤ coilFrame.length ∧ crc16 coilFrame = 0#16 ∧ crc16 (bytes [0xFF, 0xFE]) ≠ 0#16 := by decide

/-- StreamingGivesChecksum. -/
theorem test_witness_streaming :
    (scripted (op .crcInit :: (bytes [0x01, 0x05]).map (fun b => op (.crcByte b)) ++ [.wait 1]) brimful).env.program =
      op .crcInit :: (bytes [0x01, 0x05]).map (fun b => op (.crcByte b)) ++ [.wait 1] := by decide

/-- CrcOperationsFrame: each of the three operations. -/
theorem test_witness_crc_frame :
    Instr.crcInit.isCrcOperation = true ∧ (Instr.crcByte 0x01#8).isCrcOperation = true ∧
      Instr.crcCompute.isCrcOperation = true ∧ (blkOf (exec .crcInit brimful)).isSome = true ∧
      (blkOf (exec (.crcByte 0x01#8) brimful)).isSome = true ∧ (blkOf (exec .crcCompute brimful)).isSome = true := by decide

/-- BufPushResult: the last byte that fits, and the first that does not. -/
theorem test_witness_push :
    (st [1, 2, 3, 4, 5, 6, 7, 8] 0#3 (some 9)).bufMax ≠ some (st [1, 2, 3, 4, 5, 6, 7, 8] 0#3 (some 9)).blk.ilen ∧
      brimful.bufMax = some brimful.blk.ilen := by decide

/-- LoadingWordsLoadTheOperand: as many bytes as the capacity. -/
theorem test_witness_loading :
    (∀ n, brimful.bufMax = some n → (bytes [9, 8, 7, 6, 5, 4, 3, 2, 1]).length ≤ n) ∧
      (scripted (loadWords (bytes [9, 8, 7, 6, 5, 4, 3, 2, 1]) ++ []) brimful).env.program =
        loadWords (bytes [9, 8, 7, 6, 5, 4, 3, 2, 1]) ++ [] :=
  ⟨fun n h => by cases h; decide, by decide⟩

/-- BufferAndConfigFrame: a push on a full buffer too. -/
theorem test_witness_buffer_frame :
    (blkOf (exec .bufClr brimful)).isSome = true ∧ (blkOf (exec (.bufPush 0x01#8) brimful)).isSome = true ∧
      (blkOf (exec (.cfgSet 7#3) brimful)).isSome = true := by decide

/-- RdbitsResult: both function codes that build, and both neighbours that do not. -/
theorem test_witness_rdbits :
    (0x01#8 = 0x01#8 ∨ 0x01#8 = 0x02#8) ∧ (0x02#8 = 0x01#8 ∨ 0x02#8 = 0x02#8) ∧
      (0x00#8 ≠ 0x01#8 ∧ 0x00#8 ≠ 0x02#8) ∧ (0x03#8 ≠ 0x01#8 ∧ 0x03#8 ≠ 0x02#8) := by decide

/-- WrcoilResult: the greatest valid index and the least invalid one, in both modes. -/
theorem test_witness_wrcoil :
    ((0x07#8).toNat ≤ if (st [] 0#3).blk.cfg.getLsbD 2 then 3 else 7) ∧
    (if (st [] 0#3).blk.cfg.getLsbD 2 then 3 else 7) < (0x08#8).toNat ∧
    ((0x03#8).toNat ≤ if (st [] 4#3).blk.cfg.getLsbD 2 then 3 else 7) ∧
    (if (st [] 4#3).blk.cfg.getLsbD 2 then 3 else 7) < (0x04#8).toNat := by decide

/-- BuildersMakeWellFormedRequests, BuildersFrame, BuiltFramesHaveTheRightTrailer: each builder gives a valid frame. -/
theorem test_witness_builders :
    (Instr.bldRaw true).isBuilder = true ∧ Instr.bldRaw true ≠ .bldRaw false ∧
      [(blkOf (exec (.bldRdbits 0x01#8 0x01#8 0#16 8#16) brimful)).map (·.fvalid),
        (blkOf (exec (.bldRdbits 0x01#8 0x02#8 0#16 8#16) brimful)).map (·.fvalid),
        (blkOf (exec (.bldRdhold 0x01#8 0#16 1#16) brimful)).map (·.fvalid),
        (blkOf (exec (.bldWrcoil 0x01#8 0x07#8 true) brimful)).map (·.fvalid),
        (blkOf (exec (.bldWraddr 0x05#8) brimful)).map (·.fvalid),
        (blkOf (exec (.bldRaw true) brimful)).map (·.fvalid)] =
      [some true, some true, some true, some true, some true, some true] := by decide

/-- DecodeEmptyAndShort: no byte, one byte, three bytes. -/
theorem test_witness_short :
    (st [] 3#3).blk.ilen = 0 ∧ 1 ≤ (st [1] 0#3).blk.ilen ∧ (st [1, 1, 1] 0#3).blk.ilen ≤ 3 ∧
      1 ≤ (st [1, 1, 1] 0#3).blk.ilen := by decide

/-- DecodeBitStatus: four bytes suffice, and both strict checks can pass. -/
theorem test_witness_bits :
    let s := st [0x01, 0x01, 0x01, 0x05] 0#3
    let u := st [0x01, 0x02, 0x01, 0xA5, 0x61, 0xF3] 3#3
    (s.blk.ibuf[1]? = some 0x01#8 ∧ s.blk.ibuf[3]? = some 0x05#8 ∧ s.blk.checksPass 0x77#8) ∧
      (u.blk.ibuf[1]? = some 0x02#8 ∧ u.blk.ibuf[3]? = some 0xA5#8 ∧ u.blk.checksPass 0x02#8) := by
  unfold Block.checksPass
  decide

/-- DecodeRegisterByte: five bytes suffice, and both strict checks can pass. -/
theorem test_witness_register :
    let s := st [0x05, 0x03, 0x02, 0x00, 0x05] 0#3
    let u := st [0x05, 0x03, 0x02, 0x00, 0x05, 0x89, 0x87] 3#3
    (s.blk.ibuf[1]? = some 0x03#8 ∧ s.blk.ibuf[4]? = some 0x05#8 ∧ s.blk.checksPass 0x77#8) ∧
      (u.blk.ibuf[1]? = some 0x03#8 ∧ u.blk.ibuf[4]? = some 0x05#8 ∧ u.blk.checksPass 0x03#8) := by
  unfold Block.checksPass
  decide

/-- DecodeWriteAck: six bytes suffice, and both strict checks can pass. -/
theorem test_witness_ack :
    let s := st [0x01, 0x05, 0x12, 0x34, 0xAB, 0xCD] 0#3
    let u := (st [] 3#3).setBlk ((st [] 3#3).blk.setIbuf coilFrame)
    (s.blk.ibuf[1]? = some 0x05#8 ∧ s.blk.ibuf[2]? = some 0x12#8 ∧ s.blk.ibuf[3]? = some 0x34#8 ∧
      s.blk.ibuf[4]? = some 0xAB#8 ∧ s.blk.ibuf[5]? = some 0xCD#8 ∧ s.blk.checksPass 0x77#8) ∧
      (u.blk.ibuf[1]? = some 0x05#8 ∧ u.blk.ibuf[2]? = some 0x00#8 ∧ u.blk.ibuf[3]? = some 0x02#8 ∧
      u.blk.ibuf[4]? = some 0xFF#8 ∧ u.blk.ibuf[5]? = some 0x00#8 ∧ u.blk.checksPass 0x05#8) := by
  unfold Block.checksPass
  decide

/-- DecodeOtherIsMalformed: 0x10, 0x03 with four bytes, 0x05 with five. -/
theorem test_witness_other :
    let ok := fun (s : State) (fn : Byte) => 4 ≤ s.blk.ilen ∧ s.blk.ibuf[1]? = some fn ∧
      (fn ≠ 0x01#8 ∧ fn ≠ 0x02#8 ∧ (fn = 0x03#8 → s.blk.ilen = 4) ∧ (fn = 0x05#8 → s.blk.ilen ≤ 5))
    ok (st [0x00, 0x10, 0x00, 0x00, 0x00, 0x01, 0x00, 0x18] 0#3) 0x10#8 ∧
      ok (st [0x05, 0x03, 0x02, 0x00] 0#3) 0x03#8 ∧ ok (st [0x01, 0x05, 0x00, 0x02, 0xFF] 0#3) 0x05#8 := by decide

/-- StrictEchoRule: its three clauses, at four bytes. -/
theorem test_witness_echo :
    let s := st [0x01, 0x02, 0x01, 0x05] 1#3
    (s.blk.cfg.getLsbD 0 = true ∧ 4 ≤ s.blk.ilen ∧ s.blk.ibuf[1]? = some 0x02#8 ∧ 0x02#8 ≠ 0x01#8) ∧
      (st [0x01, 0x02, 0x01, 0x05] 6#3).blk.cfg.getLsbD 0 = false ∧ s.blk.ibuf[1]? = some 0x02#8 := by decide

/-- StrictCrcRule, at four bytes (section 4.2). -/
theorem test_witness_strict_crc :
    let s := st [0x01, 0x01, 0x01, 0x05] 2#3
    s.blk.cfg.getLsbD 1 = true ∧ 4 ≤ s.blk.ilen ∧
      s.blk.ibuf.drop (s.blk.ilen - 2) ≠ crcBytes (s.blk.ibuf.take (s.blk.ilen - 2)) := by decide

/-- DefaultDecodeLooksAtFewBytes: two operands that differ at index 0 and from index 6 on. -/
theorem test_witness_few_bytes :
    let s := st [0x01, 0x05, 0x00, 0x02, 0xFF, 0x00, 0x2D, 0xFA] 0#3
    let u := st [0x09, 0x05, 0x00, 0x02, 0xFF, 0x00, 0x12, 0x34] 4#3
    s.blk.cfg.getLsbD 0 = false ∧ s.blk.cfg.getLsbD 1 = false ∧ u.blk.cfg.getLsbD 0 = false ∧
      u.blk.cfg.getLsbD 1 = false ∧ s.blk.ilen = u.blk.ilen ∧
      (∀ j, j < 6 → 1 ≤ j → s.blk.ibuf[j]? = u.blk.ibuf[j]?) ∧
      (blkOf (exec (.decDecode 0x01#8) s)).isSome = true ∧ (blkOf (exec (.decDecode 0x02#8) u)).isSome = true := by decide

/-- DecodeFrame. -/
theorem test_witness_decode_frame : (blkOf (exec (.decDecode 0x01#8) brimful)).isSome = true := by decide

/-- CoilEchoIsAcknowledged, strict. -/
theorem test_witness_echoed :
    (blkOf (exec (.bldWrcoil 0x01#8 0x02#8 true) brimful)).map (fun b => (b.fvalid, b.fbuf)) =
      some (true, ((st [] 3#3).blk.setIbuf coilFrame).ibuf) := by decide

/-- StepKeepsInvariant: a state with every buffer full meets the invariant and takes a step. -/
theorem test_witness_invariant :
    (scripted [.packet (.command 0x0200000000000000#64)] brimful).Inv ∧
      (blkOf (step (scripted [.packet (.command 0x0200000000000000#64)] brimful))).map (·.err) =
        some .bufferOverflow := by
  refine ⟨⟨⟨?_, ?_, ?_, ?_, ?_⟩, ?_, fun h => by cases h⟩, by decide⟩
  · show 9 ≤ 9 ∧ _
    exact ⟨by decide, by decide, by decide⟩
  · intro h
    cases h
  · exact fun _ => ⟨rfl, rfl⟩
  · unfold Block.payloadSound
    decide
  · exact .inl rfl
  · exact ⟨by decide, by decide⟩

/-- OnlyCrcOperationsWriteCrc: a step that changes `CRC`. -/
theorem test_witness_crc_changes :
    (blkOf (step (scripted [op (.crcByte 0x01#8)] brimful))).map (fun b => decide (b.crc ≠ brimful.blk.crc)) =
      some true := by decide

/-- OnlyBuildersChangeTheFrame: a step that changes both fields. -/
theorem test_witness_frame_changes :
    (blkOf (step (scripted [op (.bldRdbits 0x01#8 0x03#8 0#16 1#16)] brimful))).map
      (fun b => decide (b.fbuf ≠ brimful.blk.fbuf ∧ b.fvalid ≠ brimful.blk.fvalid)) = some true := by decide

/-- OnlyCfgSetWritesCfg: a step that changes `CFG`. -/
theorem test_witness_cfg_changes :
    (blkOf (step (scripted [op (.cfgSet 1#3)] brimful))).map (fun b => decide (b.cfg ≠ brimful.blk.cfg)) =
      some true := by decide

/-- OnlyDecodingWritesTheResult: a step that changes `BITS`. -/
theorem test_witness_result_changes :
    (blkOf (step (scripted [op (.decDecode 0x01#8)] brimful))).map
      (fun b => decide (b.bits ≠ brimful.blk.bits)) = some true := by decide

/-- CommandsIgnoreTheEnvironment: the twelve operations. -/
theorem test_witness_commands :
    [Instr.bufClr, .bufPush 1#8, .crcInit, .crcByte 1#8, .crcCompute, .bldRdbits 1#8 1#8 0#16 8#16, .bldRdhold 0#8 0#16 1#16,
      .bldWrcoil 1#8 2#8 true, .bldWraddr 5#8, .bldRaw true, .decDecode 1#8, .cfgSet 7#3].all (·.isCommand) = true := by decide

/-- HostReadsChangeNothing: a field with a value and one without. -/
theorem test_witness_reads :
    brimful.blk.read .bits = some 5 ∧ brimful.blk.read .regval = none ∧ State.reset.blk.bits = none ∧
      (st [1, 2, 3, 4, 5] 0#3).blk.ilen ≤ 5 ∧ (scripted [.readReg .bits] brimful).env.program = .readReg .bits :: [] := by
  decide

/-- A valid frame and an open channel. -/
def ready : State := brimful.setEnv { Env.initial with channel := some ⟨"COM1", 9600⟩ }

/-- XactWritesTheWholeFrame: a valid frame on an open channel, where the free value decides the branch, and on a closed one; and no
frame at all, on an open channel. -/
theorem test_witness_xact :
    (scripted [.xact 0x10#8, .closePort] ready).env.program = .xact 0x10#8 :: [.closePort] ∧
      (scripted [.xact 0x10#8, .closePort] ready).blk.fvalid = true ∧ ready.env.channel.isSome = true ∧
      ready.env.awaiting = false ∧ (scripted [.xact 0x10#8] brimful).blk.fvalid = true ∧
      brimful.env.channel.isSome = false ∧ (scripted [.xact 0x10#8] opened).blk.fvalid = false ∧
      (scripted [.xact 0x10#8] opened).env.program = .xact 0x10#8 :: [] := by decide

/-- XACT without a frame is the host error of 45_transaction.md R137 (log 14). -/
theorem test_xact_without_frame : faultOf (step (scripted [.xact 0x10#8] opened)) = some (.noValue (.fbufByte 0)) := by decide

/-- Both branches on the open channel: the frame on record and the read next, or ChannelError and the script's rest. -/
theorem test_witness_xact_taken (h : Config.writeSucceeds 0 = true) :
    (envOf (step (scripted [.xact 0x10#8, .closePort] ready))).map (fun e => (e.sent, e.program)) =
      some ([ready.blk.fbuf], [.xactRead 0x10#8, .closePort]) := by
  have hs : sendFrame (some 0x10#8) ready.blk.frame (scripted [.closePort] ready) = _ :=
    sendFrame_taken (some 0x10#8) ready.blk.frame (scripted [.closePort] ready) rfl h
  show (envOf (xactWrite 0x10#8 (scripted [.closePort] ready))).map _ = _
  rw [xactWrite, if_pos (by decide), show (scripted [.closePort] ready).blk.frame = ready.blk.frame from rfl, hs]
  decide

/-- A read that has returned bytes. -/
def responded : State := opened.setEnv { opened.env with phase := .responseReceived }

/-- XactReadsAtMostEightBytes, XactDecodeIsItsCommandWords, TransactionOpensFirst: scripts that begin so, waiting and not. -/
theorem test_witness_scripts :
    (scripted [.xactRead 0x01#8] (waiting 0x01#8 0#3)).env.program = .xactRead 0x01#8 :: [] ∧
      (waiting 0x01#8 0#3).env.awaiting = true ∧ opened.env.awaiting = false ∧
      (scripted [.closePort] (waiting 0x01#8 0#3)).env.program = .closePort :: [] ∧ HostAction.closePort.usesLink = true ∧
      responded.env.phase = .responseReceived ∧
      (scripted [.xactDecode 0x01#8 coilFrame] responded).env.program = .xactDecode 0x01#8 coilFrame :: [] ∧
      (scripted [.openPort "COM1" 9600] opened).env.program = .openPort "COM1" 9600 :: [] ∧
      brimful.env.channel = none ∧
      (scripted [.transactionIfBuilt "COM1" 9600 0x01#8] brimful).env.program =
        .transactionIfBuilt "COM1" 9600 0x01#8 :: [] ∧
      (scripted [.xactDecode 0x01#8 coilFrame, .closePort] brimful).env.program =
        .xactDecode 0x01#8 coilFrame :: [.closePort] ∧
      (scripted [.transaction "COM1" 9600 0x01#8] brimful).env.program = .transaction "COM1" 9600 0x01#8 :: [] := by decide

/-- TransactionOpensFirst: the commands of 30_encoding.md R71 with the words and channel numbers of 95_test_vectors.md section 7
(P1, P2, P4): user channel 3 is index 2. -/
theorem test_witness_commands_expand :
    (CliCommand.relayControl 0x01#8 0x03#8 true).expand "COM1" 9600 =
      [.packet (.command 0x2201020100000000#64), .transactionIfBuilt "COM1" 9600 0x05#8] ∧
    (CliCommand.readRelayStatus 0x01#8).expand "COM1" 9600 =
      [.packet (.command 0x2001010000000800#64), .transactionIfBuilt "COM1" 9600 0x01#8] ∧
    (CliCommand.setSlaveAddress 0x05#8).expand "COM1" 9600 =
      [.packet (.command 0x2305000000000000#64), .transactionIfBuilt "COM1" 9600 0x10#8] ∧
    CliCommand.checkSlaveAddress.expand "COM1" 9600 =
      [.packet (.command 0x2100030000000100#64), .transactionIfBuilt "COM1" 9600 0x03#8] ∧
    (∀ n, (scripted ((CliCommand.manualSend coilFrame 0x05#8).expand "COM1" 9600) brimful).bufMax = some n →
      coilFrame.length ≤ n) :=
  ⟨by decide, by decide, by decide, by decide, fun n h => by cases h; decide⟩

/-- A builder that raised EncodingError sends nothing (log 21). -/
theorem test_no_frame_no_transaction :
    (envOf (step (scripted [.transactionIfBuilt "COM1" 9600 0x05#8, .wait 500] opened))).map (·.program) =
      some [.wait 500] := by decide

/-- RequestFramesAreWrittenVerbatim, WireFramesFrame: a well-formed request on an open channel. -/
theorem test_witness_request :
    encode (.reqWrcoil 0x01#8 0x02#8 true 0xFA2D#16) = .request coilFrame ∧ opened.env.channel.isSome = true ∧
      (Instr.reqWrcoil 0x01#8 0x02#8 true 0xFA2D#16).wellFormed = true ∧
      (Instr.reqWrcoil 0x01#8 0x02#8 true 0xFA2E#16).wellFormed = false ∧
      (blkOf (exec (.reqWrcoil 0x01#8 0x02#8 true 0xFA2D#16) opened)).isSome = true ∧ opened.env.awaiting = false ∧
      refusal (.request (bytes [0x01, 0x06])) = some .unknownLayout ∧
      (scripted [.packet (.request (bytes [0x01, 0x06]))] opened).env.program =
        .packet (.request (bytes [0x01, 0x06])) :: [] := by decide

/-- The least capacity is legal. -/
theorem test_capacity_legal (fn : Byte) : (waiting fn 3#3 (some 9)).capacityLegal := by
  intro n h
  cases h
  decide

/-- BitStatusFramesDecode, WireFramesFrame: a waiting read at the least capacity, both strict checks on and passing, and a
wrong trailer. -/
theorem test_witness_bit_frame :
    encode (.rspRdcoils 0x01#8 0x01#8 0x05#8 0x8B91#16) = .response (bytes [0x01, 0x01, 0x01, 0x05, 0x91, 0x8B]) ∧
      encode (.rspRdinputs 0x01#8 0x01#8 0xA5#8 0xF361#16) = .response (bytes [0x01, 0x02, 0x01, 0xA5, 0x61, 0xF3]) ∧
      (waiting 0x01#8 3#3 (some 9)).env.awaiting = true ∧ (waiting 0x01#8 3#3 (some 9)).env.expFn = 0x01#8 ∧
      (waiting 0x02#8 3#3 (some 9)).env.expFn = 0x02#8 ∧
      (waiting 0x01#8 3#3 (some 9)).blk.cfg = 3#3 ∧ (Instr.rspRdcoils 0x01#8 0x01#8 0x05#8 0x8C91#16).wellFormed = false ∧
      (Instr.rspRdcoils 0x01#8 0x01#8 0x05#8 0x8B91#16).wellFormed = true ∧
      (Instr.rspRdinputs 0x01#8 0x01#8 0xA5#8 0xF361#16).wellFormed = true := by decide

/-- OtherResponseFramesDecode: the same for the other rows, and a response of 9 bytes with no layout. -/
theorem test_witness_other_frames :
    (waiting 0x03#8 3#3 (some 9)).env.awaiting = true ∧ (waiting 0x03#8 3#3 (some 9)).env.expFn = 0x03#8 ∧
      (Instr.rspRdhold 0x05#8 0x02#8 0x00#8 0x05#8 0x8789#16).wellFormed = true ∧
      (waiting 0x05#8 3#3 (some 9)).env.expFn = 0x05#8 ∧
      (Instr.rspWrcoil 0x01#8 0x0002#16 0xFF00#16 0xFA2D#16).wellFormed = true ∧
      (Instr.rspWrcoil 0x01#8 0x0002#16 0xFF00#16 0xFA2E#16).wellFormed = false ∧
      refusal (.response (bytes [1, 1, 2, 3, 4, 5, 6, 7, 8])) = some .unknownLayout := by decide

/-- A response longer than the read budget is cut to 8 bytes (45_transaction.md R131). -/
theorem test_long_response :
    (blkOf (step (scripted [.packet (.response (bytes [1, 1, 2, 3, 4, 5, 6, 7, 8]))] (waiting 0x01#8 0#3)))).map
      (fun b => (b.ibuf, b.bits)) = some (bytes [1, 1, 2, 3, 4, 5, 6, 7], some 0x03#8) := by decide

end Sys2Proof.Tests
end

/-! SUPPORT. The invariant of the machine is kept by every step: first the operations of the block, then those of the link, the
dispatch, and one item of the host's script. -/

namespace Sys2Proof.Machine

/-! ## The invariant through the machine's updates -/

theorem State.Inv.setBlk {s : State} (h : s.Inv) {b : Block} (hb : b.Sound s.bufMax) : (s.setBlk b).Inv :=
  ⟨hb, h.outcome, h.link⟩

theorem State.Inv.setEnv {s : State} (h : s.Inv) {e : Env} (ho : e.outcomeSound) (hl : e.linkSound) : (s.setEnv e).Inv :=
  ⟨h.block, ho, hl⟩

/-- The invariant does not look at the script. -/
theorem State.Inv.setProgram {s : State} (h : s.Inv) (p : List HostAction) : (s.setProgram p).Inv :=
  ⟨h.block, h.outcome, h.link⟩

/-! ## What soundness says of a bounded capacity -/

/-- A sound block has room for the longest fixed-layout payload (00_scope.md R7). -/
theorem Block.Sound.nine_le {b : Block} {m : Option Nat} (h : b.Sound m) (n : Nat) (hm : m = some n) : 9 ≤ n := by
  subst hm
  exact h.fits.1

theorem Block.Sound.ibuf_length_le {b : Block} {m : Option Nat} (h : b.Sound m) (n : Nat) (hm : m = some n) :
    b.ibuf.length ≤ n := by
  subst hm
  exact h.fits.2.1

/-- The reset registers fit every capacity that a sound block fits. -/
theorem Block.Sound.reset {b : Block} {m : Option Nat} (h : b.Sound m) : Block.reset.Sound m := by
  refine { Block.reset_sound with fits := ?_ }
  cases m with
  | none => trivial
  | some n => exact ⟨h.nine_le n rfl, Nat.zero_le _, Nat.zero_le _⟩

/-! ## The builders -/

/-- The frame of a fixed layout: its payload has at most nine bytes (42_frame_encoder.md R91 to R95). -/
theorem Block.Sound.succeedWith_appendCrc {b : Block} {m : Option Nat} (h : b.Sound m) {p : List Byte} {w : Bool}
    (hp : p.length ≤ 9) (hw : w = true → p = writeAddrPayload 0xFF#8) :
    (Machine.succeedWith (appendCrc p) w b).Sound m := by
  refine h.succeedWith (fun n hm => ?_) fun hw' => congrArg appendCrc (hw hw')
  have := h.nine_le n hm
  rw [appendCrc_length]
  omega

/-- The frame of BLD.RAW: the operand with or without a trailer (42_frame_encoder.md R97). -/
theorem Block.Sound.succeedWith_operand {b : Block} {m : Option Nat} (h : b.Sound m) (withCrc : Bool) :
    (Machine.succeedWith (if withCrc then appendCrc b.operand else b.operand) false b).Sound m := by
  refine h.succeedWith (fun n hm => ?_) fun hw => by cases hw
  have := h.ibuf_length_le n hm
  cases withCrc <;> simp <;> omega

theorem writeAddrPayload_of_warnOfAddr {new : Byte} (h : warnOfAddr new = true) :
    writeAddrPayload new = writeAddrPayload 0xFF#8 :=
  congrArg writeAddrPayload (eq_of_beq h)

/-! ## The link -/

theorem State.Inv.finishTransaction {s : State} (h : s.Inv) (fn : Byte) (raw : List Byte) :
    (finishTransaction fn raw s).Inv :=
  ⟨(h.block.loadOperand raw).decodeOperand fn, rfl, fun hp => by cases hp⟩

theorem State.Inv.settle {s : State} (h : s.Inv) : (settle s).Inv := by
  cases hw : s.env.awaiting with
  | false => rwa [settle_idle s hw]
  | true =>
    rw [settle_waiting s hw]
    have hs : (s.setEnv { s.env with oracle := s.env.oracle + 1 }).Inv := h.setEnv h.outcome h.link
    exact hs.finishTransaction _ _

theorem State.Inv.receiveFrame {s : State} (h : s.Inv) (raw : List Byte) : (receiveFrame raw s).Inv := by
  cases hw : s.env.awaiting with
  | false => rwa [receiveFrame_idle raw s hw]
  | true =>
    rw [receiveFrame_waiting raw s hw]
    exact h.finishTransaction _ _

theorem State.Inv.sendFrame {s : State} (h : s.Inv) (fn : Option Byte) (frame : List Byte) : (sendFrame fn frame s).Inv :=
  h.settle.setEnv (Env.write_outcomeSound _ _ frame) (Env.write_linkSound _ _ frame)

/-- Where no transaction waits, none is left in FrameSent: it would have an open channel to wait on. -/
theorem Env.linkSound.phase_ne_frameSent {e : Env} (h : e.linkSound) (hw : e.awaiting = false) : e.phase ≠ .frameSent := by
  intro hp
  simp [Env.awaiting, hp, h hp] at hw

/-- A transaction that waits has ended before the channel is closed (log 24). -/
theorem State.Inv.closeChannel {s : State} (h : s.Inv) :
    ((Machine.settle s).setEnv (closeChannel (Machine.settle s).env)).Inv :=
  h.settle.setEnv h.settle.outcome
    fun hp => absurd hp (h.settle.link.phase_ne_frameSent (settle_not_awaiting s))

theorem State.Inv.openChannel {s : State} (h : s.Inv) (port : String) (baud : Nat) :
    ((Machine.settle s).setEnv (openChannel port baud (Machine.settle s).env)).Inv :=
  h.settle.setEnv (openChannel_outcomeSound port baud _) (openChannel_linkSound port baud _)

/-- The host sequence is the open with the rest put on the script. -/
theorem State.Inv.hostSequence {s : State} (h : s.Inv) (port : String) (baud : Nat) (fn : Byte) :
    (hostSequence port baud fn s).Inv :=
  (h.openChannel port baud).setProgram _

theorem State.Inv.xactRead {s : State} (h : s.Inv) (fn : Byte) : (s.setEnv (xactRead fn s.env)).Inv := by
  unfold Machine.xactRead
  split
  · by_cases hr : s.env.readBytes = [] <;>
      exact h.setEnv (by simp [Env.outcomeSound, hr]) (by simp [Env.linkSound, hr])
  · exact h

theorem State.Inv.xactDecode {s : State} (h : s.Inv) (fn : Byte) (raw : List Byte) : (xactDecode fn raw s).Inv := by
  unfold Machine.xactDecode
  split
  · exact h.finishTransaction fn raw
  · exact h

/-! ## Outcomes that leave the invariant -/

/-- The next state, where the outcome is one, meets the invariant. -/
def LeavesInv : Host.Outcome State Fault Refusal → Prop
  | .next t => t.Inv
  | .fault _ => True
  | .refused _ => True

theorem LeavesInv.inv {o : Host.Outcome State Fault Refusal} (h : LeavesInv o) {t : State} (ht : o = .next t) : t.Inv := by
  subst ht
  exact h

/-- A builder that tests its operands first: EncodingError when the test `c` finds them bad, else the frame of its layout
(42_frame_encoder.md R91, R93, R96). -/
theorem guardedBuild_leavesInv {s : State} (h : s.Inv) (c : Prop) [Decidable c] {p : List Byte} (hp : p.length ≤ 9) :
    LeavesInv (if c then .next (s.setBlk (raiseEncodingError s.blk))
      else .next (s.setBlk (succeedWith (appendCrc p) false s.blk))) := by
  split
  · exact h.setBlk h.block.raiseEncodingError
  · exact h.setBlk (h.block.succeedWith_appendCrc hp (by simp))

/-- Every instruction keeps the invariant: a command by what it does to the registers, a wire row by what the link does. -/
theorem exec_leavesInv {s : State} (h : s.Inv) : ∀ i : Instr, LeavesInv (exec i s)
  | .bufClr => h.setBlk h.block.clearOperand
  | .bufPush b => h.setBlk (h.block.pushOperand b)
  | .crcInit => h.setBlk (h.block.setCrc _).complete
  | .crcByte _ => h.setBlk (h.block.setCrc _).complete
  | .crcCompute => h.setBlk (h.block.setCrc _).complete
  | .bldRdbits _ _ _ _ => guardedBuild_leavesInv h _ (by simp)
  | .bldRdhold _ _ _ => h.setBlk (h.block.succeedWith_appendCrc (by simp) (by simp))
  | .bldWrcoil _ _ _ => guardedBuild_leavesInv h _ (by simp)
  | .bldWraddr _ => h.setBlk (h.block.succeedWith_appendCrc (by simp) writeAddrPayload_of_warnOfAddr)
  | .bldRaw withCrc => h.setBlk (h.block.succeedWith_operand withCrc)
  | .decDecode fn => h.setBlk (h.block.decodeOperand fn)
  | .cfgSet flags => h.setBlk (h.block.setCfg flags).complete
  | .reqRdcoils _ _ _ _ => h.sendFrame _ _
  | .reqRdinputs _ _ _ _ => h.sendFrame _ _
  | .reqRdhold _ _ _ _ => h.sendFrame _ _
  | .reqWrcoil _ _ _ _ => h.sendFrame _ _
  | .reqWraddr _ _ => h.sendFrame _ _
  | .rspRdcoils _ _ _ _ => h.receiveFrame _
  | .rspRdinputs _ _ _ _ => h.receiveFrame _
  | .rspRdhold _ _ _ _ _ => h.receiveFrame _
  | .rspWrcoil _ _ _ _ => h.receiveFrame _
  | .rspWrreg _ _ _ _ => h.receiveFrame _

theorem runUndecoded_leavesInv {s : State} (h : s.Inv) : ∀ p : Packet, LeavesInv (runUndecoded p s)
  | .command _ => h.setBlk (h.block.raise (.inr (.inl rfl)))
  | .request frame => h.sendFrame none frame
  | .response raw => h.receiveFrame raw

theorem runPacket_leavesInv {s : State} (h : s.Inv) (p : Packet) : LeavesInv (runPacket p s) := by
  unfold runPacket
  split
  · exact exec_leavesInv h _
  · exact runUndecoded_leavesInv h p

/-- XACT's write is a frame sent, with at most its continuation put on the script; without a frame the machine stops. -/
theorem xactWrite_leavesInv {s : State} (h : s.Inv) (fn : Byte) : LeavesInv (xactWrite fn s) := by
  have hsend := h.sendFrame (some fn) s.blk.frame
  cases hv : s.blk.fvalid with
  | false =>
    simp only [xactWrite, hv]
    trivial
  | true =>
    simp only [xactWrite, hv, if_true]
    split
    · exact hsend.setProgram _
    · exact hsend

theorem readRegister_leavesInv {s : State} (h : s.Inv) (r : RegName) : LeavesInv (readRegister r s) := by
  unfold readRegister
  split
  · exact h.setEnv h.outcome h.link
  · trivial

/-- Every item of the host's script keeps the invariant. -/
theorem runAction_leavesInv {s : State} (h : s.Inv) (a : HostAction) : LeavesInv (runAction a s) := by
  cases a with
  | packet p => exact runPacket_leavesInv h p
  | openPort port baud => exact h.openChannel port baud
  | xact fn => exact xactWrite_leavesInv h fn
  | xactRead fn => exact h.xactRead fn
  | xactDecode fn raw => exact h.xactDecode fn raw
  | closePort => exact h.closeChannel
  | transaction port baud fn => exact h.hostSequence port baud fn
  | transactionIfBuilt port baud fn =>
    show State.Inv (if s.blk.fvalid then _ else _)
    split
    · exact h.setProgram _
    · exact h
  | wait ms => exact h
  | readReg r => exact readRegister_leavesInv h r
  | resetBlock => exact h.setBlk h.block.reset

theorem step_leavesInv {s : State} (h : s.Inv) : LeavesInv (step s) := by
  cases hp : s.env.program with
  | nil =>
    rw [step_nil s hp]
    exact h
  | cons a rest =>
    rw [step_cons s a rest hp]
    exact runAction_leavesInv (h.setProgram rest) a

/-- Settles O46, by one lemma per item of the host's script and per instruction. -/
theorem stepKeepsInvariant : Obligations.StepKeepsInvariant :=
  fun _ _ h ht => (step_leavesInv h).inv ht

end Sys2Proof.Machine

/-! SUPPORT. What one step can do to the registers: each instruction by its unit (the block's operations, the wire rows), then each
item of the host's script, and from that the rules of 10_state.md about which actions write which register. -/

namespace Sys2Proof.Machine

/-! ## The instructions by unit -/

/-- An operation of the block is a function of the registers and the capacity; it leaves the rest of the machine (10_state.md R10). -/
theorem exec_command : ∀ i : Instr, i.isCommand = true →
    ∃ f : Option Nat → Block → Block, ∀ s, exec i s = .next (s.setBlk (f s.bufMax s.blk))
  | .bufClr, _ => ⟨fun _ => clearOperand, fun _ => rfl⟩
  | .bufPush v, _ => ⟨fun m => pushOperand m v, fun _ => rfl⟩
  | .crcInit, _ => ⟨fun _ b => complete (b.setCrc Config.crcInit), fun _ => rfl⟩
  | .crcByte v, _ => ⟨fun _ b => complete (b.setCrc (crcByte b.crc v)), fun _ => rfl⟩
  | .crcCompute, _ => ⟨fun _ b => complete (b.setCrc (crc16 b.operand)), fun _ => rfl⟩
  | .bldRdbits slave fn start count, _ =>
    ⟨fun _ b => if fn ≠ 0x01#8 ∧ fn ≠ 0x02#8 then raiseEncodingError b
      else succeedWith (appendCrc (readPayload slave fn start count)) false b,
      fun s => by simp only [exec, execBldRdbits]; split <;> rfl⟩
  | .bldRdhold slave start count, _ =>
    ⟨fun _ => succeedWith (appendCrc (readPayload slave 0x03#8 start count)) false, fun _ => rfl⟩
  | .bldWrcoil slave ch on, _ =>
    ⟨fun _ b => if channelValid ch b.ch4 = false then raiseEncodingError b
      else succeedWith (appendCrc (writeCoilPayload slave ch on)) false b,
      fun s => by simp only [exec, execBldWrcoil]; split <;> rfl⟩
  | .bldWraddr new, _ => ⟨fun _ => succeedWith (appendCrc (writeAddrPayload new)) (warnOfAddr new), fun _ => rfl⟩
  | .bldRaw withCrc, _ =>
    ⟨fun _ b => succeedWith (if withCrc then appendCrc b.operand else b.operand) false b, fun _ => rfl⟩
  | .decDecode fn, _ => ⟨fun _ => decodeOperand fn, fun _ => rfl⟩
  | .cfgSet flags, _ => ⟨fun _ b => complete (b.setCfg flags), fun _ => rfl⟩

/-- A wire row is a frame the host writes or one its read returns (log 1). -/
theorem exec_wireRow : ∀ i : Instr, i.isCommand = false →
    (∃ fn f, ∀ s, exec i s = .next (sendFrame fn f s)) ∨ (∃ raw, ∀ s, exec i s = .next (receiveFrame raw s))
  | .reqRdcoils _ _ _ _, _ => .inl ⟨_, _, fun _ => rfl⟩
  | .reqRdinputs _ _ _ _, _ => .inl ⟨_, _, fun _ => rfl⟩
  | .reqRdhold _ _ _ _, _ => .inl ⟨_, _, fun _ => rfl⟩
  | .reqWrcoil _ _ _ _, _ => .inl ⟨_, _, fun _ => rfl⟩
  | .reqWraddr _ _, _ => .inl ⟨_, _, fun _ => rfl⟩
  | .rspRdcoils _ _ _ _, _ => .inr ⟨_, fun _ => rfl⟩
  | .rspRdinputs _ _ _ _, _ => .inr ⟨_, fun _ => rfl⟩
  | .rspRdhold _ _ _ _ _, _ => .inr ⟨_, fun _ => rfl⟩
  | .rspWrcoil _ _ _ _, _ => .inr ⟨_, fun _ => rfl⟩
  | .rspWrreg _ _ _ _, _ => .inr ⟨_, fun _ => rfl⟩

/-- Every instruction completes. -/
theorem exec_next (i : Instr) (s : State) : ∃ t, exec i s = .next t := by
  cases hc : i.isCommand with
  | true =>
    obtain ⟨f, hf⟩ := exec_command i hc
    exact ⟨_, hf s⟩
  | false =>
    obtain ⟨fn, f, h⟩ | ⟨raw, h⟩ := exec_wireRow i hc
    · exact ⟨_, h s⟩
    · exact ⟨_, h s⟩

/-- A CRC operation writes `CRC` and completes (41_crc.md R84 to R86). -/
theorem exec_crcOperation : ∀ i : Instr, i.isCrcOperation = true →
    ∀ s, ∃ v, exec i s = .next (s.setBlk (complete (s.blk.setCrc v)))
  | .crcInit, _, _ => ⟨_, rfl⟩
  | .crcByte _, _, _ => ⟨_, rfl⟩
  | .crcCompute, _, _ => ⟨_, rfl⟩

/-- A builder raises EncodingError or succeeds with a frame, which ends in its checksum unless the builder is BLD.RAW 0
(42_frame_encoder.md R91 to R97). -/
theorem exec_builder (i : Instr) (hi : i.isBuilder = true) (s : State) :
    exec i s = .next (s.setBlk (raiseEncodingError s.blk)) ∨
    ∃ f w, exec i s = .next (s.setBlk (succeedWith f w s.blk)) ∧ (i ≠ .bldRaw false → ∃ p, f = appendCrc p) := by
  cases i with
  | bldRdbits slave fn start count =>
    simp only [exec, execBldRdbits]
    split
    · exact .inl rfl
    · exact .inr ⟨_, _, rfl, fun _ => ⟨_, rfl⟩⟩
  | bldRdhold slave start count => exact .inr ⟨_, _, rfl, fun _ => ⟨_, rfl⟩⟩
  | bldWrcoil slave ch on =>
    simp only [exec, execBldWrcoil]
    split
    · exact .inl rfl
    · exact .inr ⟨_, _, rfl, fun _ => ⟨_, rfl⟩⟩
  | bldWraddr new => exact .inr ⟨_, _, rfl, fun _ => ⟨_, rfl⟩⟩
  | bldRaw withCrc =>
    cases withCrc with
    | true => exact .inr ⟨_, _, rfl, fun _ => ⟨_, rfl⟩⟩
    | false => exact .inr ⟨_, _, rfl, fun h => absurd rfl h⟩
  | _ => cases hi

/-! ## What a packet decodes to -/

/-- What `d` decodes to, if anything, is an operation of the block. -/
def CommandOnly (d : Except DecodeError Instr) : Prop := ∀ i, d = .ok i → i.isCommand = true

theorem CommandOnly.error {e : DecodeError} : CommandOnly (.error e) := nofun

theorem CommandOnly.ifZero {ok : Bool} {i : Instr} (hi : i.isCommand = true) : CommandOnly (ifZero ok i) := by
  intro j h
  obtain ⟨-, rfl⟩ := ifZero_ok.mp h
  exact hi

theorem CommandOnly.ite {c : Prop} [Decidable c] {x y : Except DecodeError Instr} (hx : CommandOnly x) (hy : CommandOnly y) :
    CommandOnly (if c then x else y) := by
  split
  · exact hx
  · exact hy

/-- A command word decodes to an operation of the block only, opcode by opcode (30_encoding.md R52). -/
theorem decodeOpcode_commandOnly (opcode : Byte) (cw : CommandWord) : CommandOnly (decodeOpcode opcode cw) := by
  unfold decodeOpcode
  exact .ite (.ifZero rfl) <| .ite (.ifZero rfl) <| .ite (.ifZero rfl) <| .ite (.ifZero rfl) <| .ite (.ifZero rfl) <|
    .ite (.ifZero rfl) <| .ite (.ite (.ifZero rfl) .error) <| .ite (.ifZero rfl) <| .ite (.ifZero rfl) <|
    .ite (.ifZero rfl) <| .ite (.ifZero rfl) <| .ite (.ifZero rfl) .error

/-- A request frame decodes to a row that the host writes. -/
theorem exec_of_decodeRequest {frame : List Byte} {i : Instr} (h : decodeRequest frame = .ok i) :
    ∃ fn f, ∀ s, exec i s = .next (sendFrame fn f s) := by
  unfold decodeRequest at h
  split at h
  · split_ifs at h <;> cases h <;> exact ⟨_, _, fun _ => rfl⟩
  · split_ifs at h
    cases h
    exact ⟨_, _, fun _ => rfl⟩
  · cases h

/-- A response frame decodes to a row that the host's read returns. -/
theorem exec_of_decodeResponse {bytes : List Byte} {i : Instr} (h : decodeResponse bytes = .ok i) :
    ∃ raw, ∀ s, exec i s = .next (receiveFrame raw s) := by
  unfold decodeResponse at h
  split at h
  · split_ifs at h <;> cases h <;> exact ⟨_, fun _ => rfl⟩
  · split_ifs at h
    cases h
    exact ⟨_, fun _ => rfl⟩
  · split_ifs at h <;> cases h <;> exact ⟨_, fun _ => rfl⟩
  · cases h

/-! ## How an item of the script ends -/

theorem runPacket_ok {p : Packet} {i : Instr} (h : decode p = .ok i) (s : State) : runPacket p s = exec i s := by
  simp only [runPacket, h]

theorem runPacket_error {p : Packet} {e : DecodeError} (h : decode p = .error e) (s : State) :
    runPacket p s = runUndecoded p s := by
  simp only [runPacket, h]

/-- A request packet is a frame written, with one of the layouts or with none. -/
theorem runPacket_request (frame : List Byte) (s : State) :
    ∃ fn f, runPacket (.request frame) s = .next (sendFrame fn f s) := by
  cases hd : decode (.request frame) with
  | ok i =>
    obtain ⟨fn, f, h⟩ := exec_of_decodeRequest hd
    exact ⟨fn, f, (runPacket_ok hd s).trans (h s)⟩
  | error e => exact ⟨none, frame, runPacket_error hd s⟩

/-- A response packet is a frame received, with one of the layouts or with none. -/
theorem runPacket_response (bytes : List Byte) (s : State) :
    ∃ raw, runPacket (.response bytes) s = .next (receiveFrame raw s) := by
  cases hd : decode (.response bytes) with
  | ok i =>
    obtain ⟨raw, h⟩ := exec_of_decodeResponse hd
    exact ⟨raw, (runPacket_ok hd s).trans (h s)⟩
  | error e => exact ⟨bytes, runPacket_error hd s⟩

theorem runPacket_next (p : Packet) (s : State) : ∃ t, runPacket p s = .next t := by
  cases hd : decode p with
  | ok i => simpa only [runPacket_ok hd] using exec_next i s
  | error e =>
    rw [runPacket_error hd]
    cases p <;> exact ⟨_, rfl⟩

/-- XACT's write faults without a frame; with one it is a frame sent, after which only the script may differ. -/
theorem xactWrite_cases (fn : Byte) (s : State) :
    (s.blk.fvalid = false ∧ xactWrite fn s = .fault (.noValue (.fbufByte 0))) ∨
    ∃ p, xactWrite fn s = .next ((sendFrame (some fn) s.blk.frame s).setProgram p) := by
  cases hv : s.blk.fvalid with
  | false => exact .inl ⟨rfl, by simp [xactWrite, hv]⟩
  | true =>
    simp only [xactWrite, hv, if_true]
    split
    · exact .inr ⟨_, rfl⟩
    · exact .inr ⟨(sendFrame (some fn) s.blk.frame s).env.program, rfl⟩

/-- A register read faults on a field without a value and else writes what the host saw only. -/
theorem readRegister_cases (r : RegName) (s : State) :
    (s.blk.read r = none ∧ readRegister r s = .fault (.noValue r)) ∨
    ∃ v, readRegister r s = .next (s.setEnv { s.env with lastRead := some v }) := by
  cases hr : s.blk.read r with
  | none => exact .inl ⟨rfl, by simp only [readRegister, hr]⟩
  | some v => exact .inr ⟨v, by simp only [readRegister, hr]⟩

/-- An item of the script completes, but for the two host errors (10_state.md R24, log 14). -/
theorem runAction_cases (a : HostAction) (s : State) :
    (∃ t, runAction a s = .next t) ∨
    ∃ r, runAction a s = .fault r ∧
      ((∃ n, a = .readReg n ∧ s.blk.read n = none) ∨ (∃ fn, a = .xact fn ∧ s.blk.fvalid = false)) := by
  cases a with
  | packet p => exact .inl (runPacket_next p s)
  | xact fn =>
    obtain ⟨hv, h⟩ | ⟨p, h⟩ := xactWrite_cases fn s
    · exact .inr ⟨_, h, .inr ⟨fn, rfl, hv⟩⟩
    · exact .inl ⟨_, h⟩
  | readReg n =>
    obtain ⟨hr, h⟩ | ⟨v, h⟩ := readRegister_cases n s
    · exact .inr ⟨_, h, .inl ⟨n, rfl, hr⟩⟩
    · exact .inl ⟨_, h⟩
  | _ => exact .inl ⟨_, rfl⟩

/-- A step completes, but for the two host errors. -/
theorem step_cases (s : State) :
    (∃ t, step s = .next t) ∨
    ∃ r, step s = .fault r ∧
      ((∃ n rest, s.env.program = .readReg n :: rest ∧ s.blk.read n = none) ∨
        (∃ fn rest, s.env.program = .xact fn :: rest ∧ s.blk.fvalid = false)) := by
  cases hp : s.env.program with
  | nil => exact .inl ⟨s, step_nil s hp⟩
  | cons a rest =>
    rw [step_cons s a rest hp]
    obtain h | ⟨r, h, ⟨n, rfl, hr⟩ | ⟨fn, rfl, hv⟩⟩ := runAction_cases a (s.setProgram rest)
    · exact .inl h
    · exact .inr ⟨r, h, .inl ⟨n, rest, rfl, hr⟩⟩
    · exact .inr ⟨r, h, .inr ⟨fn, rest, rfl, hv⟩⟩

/-! ## What an item of the script writes -/

/-- The registers `b'` that the action `a` can leave from the registers `b` in the environment `e`: which action may write `CRC`, the
frame, `CFG` and the response registers. Any action may write the operand and `ERR`. -/
inductive RegisterWrite (a : HostAction) (e : Env) (b : Block) : Block → Prop where
  | operand (q : List Byte) (c : Cause) : RegisterWrite a e b { b with ibuf := q, err := c }
  | crc {i : Instr} (hi : a.issues i) (hc : i.isCrcOperation = true) (v : U16) (c : Cause) :
      RegisterWrite a e b { b with crc := v, err := c }
  | frame {i : Instr} (hi : a.issues i) (hb : i.isBuilder = true) (f : List Byte) (v w : Bool) (c : Cause) :
      RegisterWrite a e b { b with fbuf := f, fvalid := v, warn := w, err := c }
  | config {flags : BitVec 3} (hi : a.issues (.cfgSet flags)) (c : Cause) :
      RegisterWrite a e b { b with cfg := flags, err := c }
  | result (hd : a.decodesResponse e) (q : List Byte) (g : RespTag) (bs rv : Option Byte) (aa av : Option U16) (c : Cause) :
      RegisterWrite a e b { b with ibuf := q, rtag := g, bits := bs, regval := rv, ackAddr := aa, ackVal := av, err := c }
  | reset (ha : a = .resetBlock) : RegisterWrite a e b Block.reset

theorem RegisterWrite.refl {a : HostAction} {e : Env} {b : Block} : RegisterWrite a e b b := .operand b.ibuf b.err

section
variable {a : HostAction} {s t : State}

/-- An operation of the block writes the registers of its unit. -/
theorem exec_registerWrite {i : Instr} (hc : i.isCommand = true) (hi : a.issues i) (h : exec i s = .next t) :
    RegisterWrite a s.env s.blk t.blk := by
  have build (hb : i.isBuilder = true) : RegisterWrite a s.env s.blk t.blk := by
    obtain h' | ⟨f, w, h', -⟩ := exec_builder i hb s <;> cases h'.symm.trans h
    · exact .frame hi hb _ _ _ _
    · simp only [State.setBlk_blk, succeedWith_eq]
      exact .frame hi hb _ _ _ _
  have checksum (ho : i.isCrcOperation = true) : RegisterWrite a s.env s.blk t.blk := by
    obtain ⟨v, h'⟩ := exec_crcOperation i ho s
    cases h'.symm.trans h
    exact .crc hi ho v .noError
  cases i with
  | bufClr =>
    cases h
    exact .operand [] .noError
  | bufPush v =>
    cases h
    obtain ⟨-, h⟩ | ⟨-, h⟩ := pushOperand_cases s.bufMax v s.blk <;> rw [State.setBlk_blk, h]
    · exact .operand s.blk.ibuf .bufferOverflow
    · exact .operand _ _
  | crcInit | crcByte | crcCompute => exact checksum rfl
  | bldRdbits | bldRdhold | bldWrcoil | bldWraddr | bldRaw => exact build rfl
  | decDecode fn =>
    cases h
    obtain ⟨g, bs, rv, aa, av, h⟩ := writeResult_frame (s.blk.responseFor fn) s.blk
    rw [State.setBlk_blk, decodeOperand, h]
    exact .result (.inl ⟨fn, hi⟩) s.blk.ibuf g bs rv aa av .noError
  | cfgSet flags =>
    cases h
    exact .config hi .noError
  | _ => cases hc

/-- A use of the link writes registers only by ending a transaction that waits (log 24). -/
theorem settle_registerWrite (ha : a.usesLink = true) : RegisterWrite a s.env s.blk (settle s).blk := by
  cases hw : s.env.awaiting with
  | false =>
    rw [settle_idle s hw]
    exact .refl
  | true =>
    obtain ⟨q, g, bs, rv, aa, av, c, h⟩ := settle_frame s
    rw [h]
    exact .result (.inr (.inr (.inr ⟨hw, ha⟩))) q g bs rv aa av c

theorem runPacket_writes {p : Packet} (h : runPacket p s = .next t) :
    t.bufMax = s.bufMax ∧ RegisterWrite (.packet p) s.env s.blk t.blk := by
  cases p with
  | command cw =>
    cases hd : decode (.command cw) with
    | ok i =>
      rw [runPacket_ok hd] at h
      have hc := decodeOpcode_commandOnly _ cw i hd
      obtain ⟨f, hf⟩ := exec_command i hc
      refine ⟨?_, exec_registerWrite hc ⟨_, rfl, hd⟩ h⟩
      cases (hf s).symm.trans h
      rfl
    | error e =>
      rw [runPacket_error hd] at h
      cases h
      exact ⟨rfl, .operand s.blk.ibuf .illegalCommand⟩
  | request frame =>
    obtain ⟨fn, f, h'⟩ := runPacket_request frame s
    cases h'.symm.trans h
    exact ⟨sendFrame_bufMax fn f s, settle_registerWrite rfl⟩
  | response bytes =>
    obtain ⟨raw, h'⟩ := runPacket_response bytes s
    cases h'.symm.trans h
    obtain ⟨q, g, bs, rv, aa, av, c, hb⟩ := receiveFrame_frame raw s
    rw [hb]
    exact ⟨receiveFrame_bufMax raw s, .result (.inr (.inl ⟨bytes, rfl⟩)) q g bs rv aa av c⟩

/-- Every item of the script keeps `BUF_MAX` and writes only the registers that are its to write. -/
theorem runAction_writes (h : runAction a s = .next t) : t.bufMax = s.bufMax ∧ RegisterWrite a s.env s.blk t.blk := by
  cases a with
  | packet p => exact runPacket_writes h
  | openPort port baud =>
    cases h
    exact ⟨settle_bufMax s, settle_registerWrite rfl⟩
  | xact fn =>
    obtain ⟨-, h'⟩ | ⟨p, h'⟩ := xactWrite_cases fn s <;> cases h'.symm.trans h
    exact ⟨settle_bufMax s, settle_registerWrite rfl⟩
  | xactDecode fn raw =>
    cases h
    unfold xactDecode
    split
    · obtain ⟨q, g, bs, rv, aa, av, c, hb⟩ := finishTransaction_frame fn raw s
      rw [hb]
      exact ⟨rfl, .result (.inr (.inr (.inl ⟨fn, raw, rfl⟩))) q g bs rv aa av c⟩
    · exact ⟨rfl, .refl⟩
  | closePort =>
    cases h
    exact ⟨settle_bufMax s, settle_registerWrite rfl⟩
  | transaction port baud fn =>
    cases h
    exact ⟨settle_bufMax s, settle_registerWrite rfl⟩
  | transactionIfBuilt port baud fn =>
    cases h
    split <;> exact ⟨rfl, .refl⟩
  | readReg r =>
    obtain ⟨-, h'⟩ | ⟨v, h'⟩ := readRegister_cases r s <;> cases h'.symm.trans h
    exact ⟨rfl, .refl⟩
  | resetBlock =>
    cases h
    exact ⟨rfl, .reset rfl⟩
  | xactRead fn | wait ms =>
    cases h
    exact ⟨rfl, .refl⟩

theorem step_bufMax (h : step s = .next t) : t.bufMax = s.bufMax := by
  cases hp : s.env.program with
  | nil =>
    cases (step_nil s hp).symm.trans h
    rfl
  | cons a rest => exact (runAction_writes ((step_cons s a rest hp).symm.trans h)).1

/-- A step that changes the registers runs an action, which writes only what is its to write. -/
theorem step_registerWrite (h : step s = .next t) (hne : t.blk ≠ s.blk) :
    ∃ a rest, s.env.program = a :: rest ∧ RegisterWrite a (s.setProgram rest).env s.blk t.blk := by
  cases hp : s.env.program with
  | nil =>
    cases (step_nil s hp).symm.trans h
    exact absurd rfl hne
  | cons a rest => exact ⟨a, rest, rfl, (runAction_writes ((step_cons s a rest hp).symm.trans h)).2⟩

end

/-! ## Who wrote a register that has changed -/

section
variable {a : HostAction} {e : Env} {b b' : Block}

theorem RegisterWrite.of_crc_ne (h : RegisterWrite a e b b') (hne : b'.crc ≠ b.crc) :
    (∃ i, a.issues i ∧ i.isCrcOperation = true) ∨ a = .resetBlock := by
  cases h with
  | crc hi hc v c => exact .inl ⟨_, hi, hc⟩
  | reset ha => exact .inr ha
  | _ => exact absurd rfl hne

theorem RegisterWrite.of_frame_ne (h : RegisterWrite a e b b') (hne : b'.fbuf ≠ b.fbuf ∨ b'.fvalid ≠ b.fvalid) :
    (∃ i, a.issues i ∧ i.isBuilder = true) ∨ a = .resetBlock := by
  cases h with
  | frame hi hb f v w c => exact .inl ⟨_, hi, hb⟩
  | reset ha => exact .inr ha
  | _ => simp at hne

theorem RegisterWrite.of_cfg_ne (h : RegisterWrite a e b b') (hne : b'.cfg ≠ b.cfg) :
    (∃ flags, a.issues (.cfgSet flags)) ∨ a = .resetBlock := by
  cases h with
  | config hi c => exact .inl ⟨_, hi⟩
  | reset ha => exact .inr ha
  | _ => exact absurd rfl hne

theorem RegisterWrite.of_result_ne (h : RegisterWrite a e b b')
    (hne : b'.rtag ≠ b.rtag ∨ b'.bits ≠ b.bits ∨ b'.regval ≠ b.regval ∨ b'.ackAddr ≠ b.ackAddr ∨ b'.ackVal ≠ b.ackVal) :
    a.decodesResponse e ∨ a = .resetBlock := by
  cases h with
  | result hd q g bs rv aa av c => exact .inl hd
  | reset ha => exact .inr ha
  | _ => simp at hne

end

/-! ## The rules of the state -/

/-- A byte put at the end of a buffer leaves every other index as it was, those beyond included. -/
theorem getElem?_append_singleton_of_ne (buf : List Byte) (v : Byte) {j : Nat} (hj : j ≠ buf.length) :
    (buf ++ [v])[j]? = buf[j]? := by
  obtain hlt | hgt := Nat.lt_or_gt_of_ne hj
  · exact List.getElem?_append_left hlt
  · rw [List.getElem?_eq_none (by simpa using hgt), List.getElem?_eq_none hgt.le]

/-- Settles O10: each instruction completes, and an item of the script stops at the two host errors only. -/
theorem stepsStopOnlyAtHostErrors : Obligations.StepsStopOnlyAtHostErrors := by
  refine ⟨exec_next, fun s r h => ?_, fun s r h => ?_⟩
  · obtain ⟨t, h'⟩ | ⟨r', h', -⟩ := step_cases s <;> cases h'.symm.trans h
  · obtain ⟨t, h'⟩ | ⟨r', h', host⟩ := step_cases s
    · cases h'.symm.trans h
    · exact host

/-- Settles O31: a builder that succeeds ends its frame by AppendCrc, BLD.RAW 0 alone excepted. -/
theorem builtFramesHaveTheRightTrailer : Obligations.BuiltFramesHaveTheRightTrailer := by
  intro i s t hi hraw h hv
  obtain h' | ⟨f, w, h', happ⟩ := exec_builder i hi s <;> cases h'.symm.trans h
  · cases hv
  · obtain ⟨p, rfl⟩ := happ hraw
    rw [State.setBlk_blk, succeedWith_eq]
    exact ⟨by simp [Block.flen], eq_of_beq (trailerOk_appendCrc p)⟩

/-- Settles O47, by what a step can write. -/
theorem onlyCrcOperationsWriteCrc : Obligations.OnlyCrcOperationsWriteCrc := by
  intro s t h hne
  obtain ⟨a, rest, hp, hw⟩ := step_registerWrite h (ne_of_apply_ne Block.crc hne)
  exact ⟨a, rest, hp, hw.of_crc_ne hne⟩

/-- Settles O48, by what a step can write. -/
theorem onlyBuildersChangeTheFrame : Obligations.OnlyBuildersChangeTheFrame := by
  intro s t h hne
  obtain ⟨a, rest, hp, hw⟩ := step_registerWrite h fun hb => by simp [hb] at hne
  exact ⟨a, rest, hp, hw.of_frame_ne hne⟩

/-- Settles O49, by what a step can write. -/
theorem onlyCfgSetWritesCfg : Obligations.OnlyCfgSetWritesCfg := by
  refine fun s t h => ⟨step_bufMax h, fun hne => ?_⟩
  obtain ⟨a, rest, hp, hw⟩ := step_registerWrite h (ne_of_apply_ne Block.cfg hne)
  exact ⟨a, rest, hp, hw.of_cfg_ne hne⟩

/-- Settles O50, by what a step can write. -/
theorem onlyDecodingWritesTheResult : Obligations.OnlyDecodingWritesTheResult := by
  intro s t h hne
  obtain ⟨a, rest, hp, hw⟩ := step_registerWrite h fun hb => by simp [hb] at hne
  exact ⟨a, rest, hp, hw.of_result_ne hne⟩

/-- Settles O51: a command is a function of the registers and the capacity. -/
theorem commandsIgnoreTheEnvironment : Obligations.CommandsIgnoreTheEnvironment := by
  intro i s e hi
  obtain ⟨f, hf⟩ := exec_command i hi
  exact ⟨f s.bufMax s.blk, hf s, hf (s.setEnv e)⟩

/-- Settles O7: the fetch, then the dispatch. -/
theorem stepRunsDecodedPacket : Obligations.StepRunsDecodedPacket :=
  fun s p _ rest hp hd => (step_cons s (.packet p) rest hp).trans (runPacket_ok hd _)

/-- Settles O19: each of the three writes `CRC` and completes. -/
theorem crcOperationsFrame : Obligations.CrcOperationsFrame := by
  intro i s t hi h
  obtain ⟨v, h'⟩ := exec_crcOperation i hi s
  cases h'.symm.trans h
  exact ⟨⟨v, .noError, rfl⟩, rfl, rfl, fun _ => rfl, fun _ => rfl⟩

/-- Settles O24; BUF.PUSH by its two cases, the byte stored at the old `ILEN` or dropped. -/
theorem bufferAndConfigFrame : Obligations.BufferAndConfigFrame := by
  refine fun s t => ⟨fun h => ?_, fun v h => ?_, fun flags h => ?_⟩ <;> cases h
  · exact ⟨⟨[], .noError, rfl⟩, rfl, rfl, fun _ => rfl, fun _ => rfl⟩
  · obtain ⟨-, h⟩ | ⟨hroom, h⟩ := pushOperand_cases s.bufMax v s.blk <;> rw [State.setBlk_blk, h]
    · exact ⟨⟨s.blk.ibuf, _, rfl⟩, rfl, rfl, fun _ _ => rfl, fun _ _ => rfl, fun _ => rfl⟩
    · exact ⟨⟨_, _, rfl⟩, rfl, rfl, fun j hj => getElem?_append_singleton_of_ne _ v hj, fun hfull => absurd hfull hroom,
        fun _ => rfl⟩
  · exact ⟨⟨flags, .noError, rfl⟩, rfl, rfl, fun _ => rfl, fun _ => rfl⟩

end Sys2Proof.Machine

/-! SUPPORT. The host and the link: what a row of the wire leaves, what an open and a close leave, and the command words that a
command of 30_encoding.md R71 expands to. -/

namespace Sys2Proof.Machine

/-! ## What a frame received leaves of the environment -/

section
variable (raw : List Byte) (s : State)

@[simp] theorem receiveFrame_fbuf : (receiveFrame raw s).blk.fbuf = s.blk.fbuf := by
  obtain ⟨_, _, _, _, _, _, _, h⟩ := receiveFrame_frame raw s
  rw [h]

@[simp] theorem receiveFrame_program : (receiveFrame raw s).env.program = s.env.program := by
  unfold receiveFrame; split <;> rfl

@[simp] theorem receiveFrame_channel : (receiveFrame raw s).env.channel = s.env.channel := by
  unfold receiveFrame; split <;> rfl

@[simp] theorem receiveFrame_sent : (receiveFrame raw s).env.sent = s.env.sent := by
  unfold receiveFrame; split <;> rfl

@[simp] theorem receiveFrame_expFn : (receiveFrame raw s).env.expFn = s.env.expFn := by
  unfold receiveFrame; split <;> rfl

@[simp] theorem receiveFrame_lastRead : (receiveFrame raw s).env.lastRead = s.env.lastRead := by
  unfold receiveFrame; split <;> rfl

@[simp] theorem receiveFrame_oracle : (receiveFrame raw s).env.oracle = s.env.oracle := by
  unfold receiveFrame; split <;> rfl

end

/-! ## The wire rows by their encoding -/

/-- A row encoded as a request is a frame the host writes. -/
theorem exec_of_encode_request {i : Instr} {frame : List Byte} (h : encode i = .request frame) (s : State) :
    ∃ fn f, exec i s = .next (sendFrame fn f s) := by
  cases i with
  | reqRdcoils | reqRdinputs | reqRdhold | reqWrcoil | reqWraddr => exact ⟨_, _, rfl⟩
  | _ => cases h

/-- A row encoded as a response is a frame the host's read returns. -/
theorem exec_of_encode_response {i : Instr} {frame : List Byte} (h : encode i = .response frame) (s : State) :
    ∃ raw, exec i s = .next (receiveFrame raw s) := by
  cases i with
  | rspRdcoils | rspRdinputs | rspRdhold | rspWrcoil | rspWrreg => exact ⟨_, rfl⟩
  | _ => cases h

/-- Settles O60: a request row is a frame sent, a response row a frame received, and each of the two has its frame. -/
theorem wireFramesFrame : Obligations.WireFramesFrame := by
  intro i frame s t h
  refine ⟨?_, fun hreq hidle => ?_, fun hrsp => ?_⟩
  · rintro (hreq | hrsp)
    · obtain ⟨fn, f, h'⟩ := exec_of_encode_request hreq s
      cases h'.symm.trans h
      exact ⟨settle_frame s, by simp, by simp, by simp, by simp, by simp⟩
    · obtain ⟨raw, h'⟩ := exec_of_encode_response hrsp s
      cases h'.symm.trans h
      exact ⟨receiveFrame_frame raw s, by simp, by simp, by simp, by simp, by simp⟩
  · obtain ⟨fn, f, h'⟩ := exec_of_encode_request hreq s
    cases h'.symm.trans h
    rw [sendFrame_blk, settle_idle s hidle]
    exact ⟨rfl, fun _ => rfl⟩
  · obtain ⟨raw, h'⟩ := exec_of_encode_response hrsp s
    cases h'.symm.trans h
    exact ⟨receiveFrame_sent raw s, receiveFrame_expFn raw s, receiveFrame_oracle raw s, receiveFrame_idle raw s⟩

/-! ## Opening and closing the channel -/

theorem openChannel_isSome (port : String) (baud : Nat) (e : Env) :
    (openChannel port baud e).channel.isSome = Config.openSucceeds e.oracle := by
  cases h : Config.openSucceeds e.oracle <;> simp [openChannel, h]

/-- The script plays no part in an open. -/
theorem openChannel_setProgram (port : String) (baud : Nat) (u : State) (p : List HostAction) :
    openChannel port baud (u.setProgram p).env = ((u.setEnv (openChannel port baud u.env)).setProgram p).env := by
  cases h : Config.openSucceeds u.env.oracle <;> simp [openChannel, h, State.setEnv, State.setProgram]

/-- An open leaves what `PortOpened` says, whatever the script. -/
theorem openChannel_portOpened (port : String) (baud : Nat) (u : State) (p : List HostAction) :
    State.PortOpened port baud u ((u.setEnv (openChannel port baud u.env)).setProgram p) := by
  cases h : Config.openSucceeds u.env.oracle <;> simp [State.PortOpened, openChannel, h]

/-- XACT and the close are put on the script exactly when the open succeeds (45_transaction.md R134). -/
theorem afterOpen_append (port : String) (baud : Nat) (fn : Byte) (e : Env) (rest : List HostAction) :
    afterOpen fn (openChannel port baud e) ++ rest =
      if Config.openSucceeds e.oracle = true then .xact fn :: .closePort :: rest else rest := by
  simp only [afterOpen, openChannel_isSome]
  split <;> rfl

/-- Closing a closed channel changes nothing (20_memory.md R36). -/
theorem closeChannel_closed {e : Env} (h : e.channel = none) : closeChannel e = e := by
  cases e
  cases h
  rfl

theorem Env.not_awaiting_of_closed {e : Env} (h : e.channel = none) : e.awaiting = false := by simp [Env.awaiting, h]

section
variable {s : State} {rest : List HostAction} {port : String} {baud : Nat} {fn : Byte}

theorem step_openPort (hp : s.env.program = .openPort port baud :: rest) :
    step s = .next (((settle s).setEnv (openChannel port baud (settle s).env)).setProgram rest) := by
  rw [step_cons s _ rest hp, runAction, settle_setProgram, openChannel_setProgram]
  rfl

theorem step_closePort (hp : s.env.program = .closePort :: rest) :
    step s = .next (((settle s).setEnv (closeChannel (settle s).env)).setProgram rest) := by
  rw [step_cons s _ rest hp, runAction, settle_setProgram]
  rfl

theorem step_closePort_closed (hp : s.env.program = .closePort :: rest) (hc : s.env.channel = none) :
    step s = .next (s.setProgram rest) := by
  rw [step_closePort hp, settle_idle s (Env.not_awaiting_of_closed hc), closeChannel_closed hc]
  rfl

theorem step_transaction (hp : s.env.program = .transaction port baud fn :: rest) :
    step s = .next (((settle s).setEnv (openChannel port baud (settle s).env)).setProgram
      (if Config.openSucceeds (settle s).env.oracle = true then .xact fn :: .closePort :: rest else rest)) := by
  rw [step_cons s _ rest hp, runAction, hostSequence, settle_setProgram, openChannel_setProgram, ← afterOpen_append port baud]
  rfl

theorem step_transactionIfBuilt (hp : s.env.program = .transactionIfBuilt port baud fn :: rest) :
    step s = .next (s.setProgram (if s.blk.fvalid then .transaction port baud fn :: rest else rest)) := by
  rw [step_cons s _ rest hp]
  cases hv : s.blk.fvalid <;> simp [runAction, hv]

end

/-! ## Command words -/

/-- The decoder reads every operation of the block back from its command word: each field is a slice of the word
(30_encoding.md R51, R52). Sums stay unevaluated, so that a word's width still shows where its fields meet. -/
theorem decode_encode_command {i : Instr} (hi : i.isCommand = true) : decode (encode i) = .ok i := by
  cases i with
  | bufClr | crcInit | crcCompute => rfl
  | bufPush | crcByte | bldRdbits | bldRdhold | bldWrcoil | bldWraddr | bldRaw | decDecode | cfgSet =>
    simp (disch := decide) only [encode, decode, decodeCommand, decodeOpcode, ifZero, cwOp, cwByte, cwByte2, cwStart, cwCount,
      cwOn_slice, cwAppendCrc_slice, cwFlags, mbzB, mbzR, mbzC, mbzRaw, mbzF, slice_high, slice_low, slice_all, Nat.reduceSub,
      ofBool_bit, BitVec.reduceEq, if_false, if_true, beq_self_eq_true, Bool.and_self]
  | _ => cases hi

/-- An operation on the script is run by the next step. -/
theorem step_op {i : Instr} (hi : i.isCommand = true) {s : State} {rest : List HostAction}
    (hp : s.env.program = op i :: rest) : step s = exec i (s.setProgram rest) :=
  stepRunsDecodedPacket s _ i rest hp (decode_encode_command hi)

/-- BUF.PUSH words run one by one push their bytes, whether there is room or not. -/
theorem run_pushWords (raw : List Byte) (rest : List HostAction) (s : State)
    (hp : s.env.program = (raw.map fun b => op (.bufPush b)) ++ rest) :
    Host.Core.run Sys2Proof.core raw.length s =
      .next ((s.setProgram rest).setBlk (raw.foldl (fun b v => pushOperand s.bufMax v b) s.blk)) := by
  induction raw generalizing s with
  | nil =>
    cases (show s.env.program = rest from hp)
    rfl
  | cons v raw ih =>
    exact (run_succ _ _ _ (step_op (i := .bufPush v) rfl hp)).trans (ih _ rfl)

/-- The words that load an operand, run one by one, load it (44_buffer_config.md R121). -/
theorem run_loadWords (raw : List Byte) (rest : List HostAction) (s : State)
    (hp : s.env.program = loadWords raw ++ rest) :
    Host.Core.run Sys2Proof.core (raw.length + 1) s =
      .next ((s.setProgram rest).setBlk (loadOperand s.bufMax raw s.blk)) :=
  (run_succ _ _ _ (step_op (i := .bufClr) rfl hp)).trans (run_pushWords raw rest _ rfl)

/-- An operand that fits is loaded whole, and the exchange of the frame is next. -/
theorem run_loadWords_exchange (raw : List Byte) (port : String) (baud : Nat) (build : Instr) (fn : Byte)
    (rest : List HostAction) (s : State)
    (hp : s.env.program = (loadWords raw ++ exchange port baud build fn) ++ rest)
    (hfit : ∀ n, s.bufMax = some n → raw.length ≤ n) :
    Host.Core.run Sys2Proof.core (raw.length + 1) s = .next { s with
      blk := { s.blk with ibuf := raw, err := .noError }
      env := { s.env with program := op build :: .transactionIfBuilt port baud fn :: rest } } := by
  rw [List.append_assoc] at hp
  rw [run_loadWords raw _ s hp, loadOperand_fits s.bufMax raw s.blk hfit]
  rfl

/-- Settles O56: one lemma per action of the host on the channel, and the commands of R71 through the words they expand to. -/
theorem transactionOpensFirst : Obligations.TransactionOpensFirst := by
  refine ⟨?_, ?_⟩
  · rintro s u port baud fn rest rfl
    exact ⟨settle_idle s,
      fun hp => ⟨_, step_openPort hp, openChannel_portOpened port baud _ rest, rfl⟩,
      step_closePort,
      step_closePort_closed,
      fun hp => ⟨_, step_transaction hp, openChannel_portOpened port baud _ _, rfl⟩,
      step_transactionIfBuilt⟩
  · intro s port baud slave new channel fn on bytes steps rest runs loads
    exact ⟨run_loadWords_exchange bytes port baud _ fn rest s, run_loadWords_exchange bytes port baud _ fn rest s,
      step_op rfl, step_op rfl, step_op rfl, step_op rfl, step_op rfl, step_op rfl, rfl, rfl⟩

end Sys2Proof.Machine

/-! SUPPORT. The encoding read both ways: the decoder gives back what was encoded, what decodes is an encoding, and the opcode
table and the rule of illegal words (30_encoding.md R53, R73) are the decoder's own tests. -/

namespace Sys2Proof.Machine

/-! ## Frames -/

/-- The wire layouts are read back field by field (30_encoding.md R56 to R63). -/
theorem decode_encode_wireRow {i : Instr} (hi : i.isCommand = false) : decode (encode i) = .ok i := by
  cases i with
  | reqWrcoil slave ch on crc =>
    cases on <;>
      simp [encode, decode, wireFrame, Instr.wirePayload, writeCoilPayload, coilValue, beBytes, leBytes, decodeRequest]
  | reqWraddr new crc => simp [encode, decode, wireFrame, Instr.wirePayload, writeAddrPayload, leBytes, decodeRequest]
  | reqRdcoils | reqRdinputs | reqRdhold =>
    simp [encode, decode, wireFrame, Instr.wirePayload, readPayload, beBytes, leBytes, decodeRequest]
  | rspRdcoils | rspRdinputs | rspRdhold | rspWrcoil | rspWrreg =>
    simp [encode, decode, wireFrame, Instr.wirePayload, beBytes, leBytes, decodeResponse]
  | _ => cases hi

/-- Settles O3: a command word by its slices, a wire row by its bytes. -/
theorem decodeOfEncodeIsIdentity : Obligations.DecodeOfEncodeIsIdentity := by
  intro i
  cases hi : i.isCommand with
  | true => exact decode_encode_command hi
  | false => exact decode_encode_wireRow hi

/-- Settles O2: each word of the spec is the encoding of the operation it stands for. -/
theorem specWordsDecode : Obligations.SpecWordsDecode :=
  ⟨decodeOfEncodeIsIdentity .bufClr,
    decodeOfEncodeIsIdentity (.bufPush 0x01#8),
    decodeOfEncodeIsIdentity .crcInit,
    decodeOfEncodeIsIdentity (.crcByte 0x56#8),
    decodeOfEncodeIsIdentity .crcCompute,
    decodeOfEncodeIsIdentity (.bldRdbits 0x11#8 0x02#8 0x1234#16 0x0102#16),
    decodeOfEncodeIsIdentity (.bldRdhold 0x00#8 0x0000#16 0x0001#16),
    decodeOfEncodeIsIdentity (.bldWrcoil 0x01#8 0x02#8 true),
    decodeOfEncodeIsIdentity (.bldWraddr 0x05#8),
    decodeOfEncodeIsIdentity (.bldRaw true),
    decodeOfEncodeIsIdentity (.decDecode 0x01#8),
    decodeOfEncodeIsIdentity (.cfgSet 4#3),
    decodeOfEncodeIsIdentity (.reqWrcoil 0x01#8 0x02#8 true 0xFA2D#16),
    decodeOfEncodeIsIdentity (.rspRdcoils 0x01#8 0x01#8 0x05#8 0x8B91#16)⟩

/-- What decodes as a request is encoded as that request. -/
theorem encode_of_decodeRequest {frame : List Byte} {i : Instr} (h : decodeRequest frame = .ok i) :
    encode i = .request frame := by
  unfold decodeRequest at h
  split at h
  · split_ifs at h with h1 h2 h3 h5 hon hoff <;> cases h
    · simp [encode, wireFrame, Instr.wirePayload, readPayload, beBytes, leBytes, h1]
    · simp [encode, wireFrame, Instr.wirePayload, readPayload, beBytes, leBytes, h2]
    · simp [encode, wireFrame, Instr.wirePayload, readPayload, beBytes, leBytes, h3]
    · obtain ⟨rfl, hv⟩ := hon
      simp [encode, wireFrame, Instr.wirePayload, writeCoilPayload, beBytes, leBytes, h5, ← hv]
    · obtain ⟨rfl, hv⟩ := hoff
      simp [encode, wireFrame, Instr.wirePayload, writeCoilPayload, beBytes, leBytes, h5, ← hv]
  · split_ifs at h with hp
    cases h
    simp [encode, wireFrame, Instr.wirePayload, leBytes, ← hp]
  · cases h

/-- What decodes as a response is encoded as that response. -/
theorem encode_of_decodeResponse {raw : List Byte} {i : Instr} (h : decodeResponse raw = .ok i) :
    encode i = .response raw := by
  unfold decodeResponse at h
  split at h
  · split_ifs at h with h1 h2 <;> cases h
    · simp [encode, wireFrame, Instr.wirePayload, leBytes, h1]
    · simp [encode, wireFrame, Instr.wirePayload, leBytes, h2]
  · split_ifs at h with h3
    cases h
    simp [encode, wireFrame, Instr.wirePayload, leBytes, h3]
  · split_ifs at h with h5 h10 <;> cases h
    · simp [encode, wireFrame, Instr.wirePayload, beBytes, leBytes, h5]
    · simp [encode, wireFrame, Instr.wirePayload, beBytes, leBytes, h10]
  · cases h

/-! ## Command words -/

/-- `cw` is a legal word of the operation `i`: it has `i`'s opcode, its must-be-zero bits are 0, and `i`'s operands are its fields
(30_encoding.md R51 to R53). -/
inductive LegalWord (cw : CommandWord) : Instr → Prop
  | bufClr : cwOp cw = 0x01#8 → mbzZ cw = true → LegalWord cw .bufClr
  | bufPush : cwOp cw = 0x02#8 → mbzB cw = true → LegalWord cw (.bufPush (cwByte cw))
  | crcInit : cwOp cw = 0x10#8 → mbzZ cw = true → LegalWord cw .crcInit
  | crcByte : cwOp cw = 0x11#8 → mbzB cw = true → LegalWord cw (.crcByte (cwByte cw))
  | crcCompute : cwOp cw = 0x12#8 → mbzZ cw = true → LegalWord cw .crcCompute
  | bldRdbits : cwOp cw = 0x20#8 → mbzR cw = true →
      LegalWord cw (.bldRdbits (cwByte cw) (cwByte2 cw) (cwStart cw) (cwCount cw))
  | bldRdhold : cwOp cw = 0x21#8 → cwByte2 cw = 0x03#8 → mbzR cw = true →
      LegalWord cw (.bldRdhold (cwByte cw) (cwStart cw) (cwCount cw))
  | bldWrcoil : cwOp cw = 0x22#8 → mbzC cw = true → LegalWord cw (.bldWrcoil (cwByte cw) (cwByte2 cw) (cwOn cw))
  | bldWraddr : cwOp cw = 0x23#8 → mbzB cw = true → LegalWord cw (.bldWraddr (cwByte cw))
  | bldRaw : cwOp cw = 0x24#8 → mbzRaw cw = true → LegalWord cw (.bldRaw (cwAppendCrc cw))
  | decDecode : cwOp cw = 0x30#8 → mbzB cw = true → LegalWord cw (.decDecode (cwByte cw))
  | cfgSet : cwOp cw = 0x40#8 → mbzF cw = true → LegalWord cw (.cfgSet (cwFlags cw))

/-- What `d` decodes to, if anything, is what the word `cw` says. -/
def ReadsLegally (cw : CommandWord) (d : Except DecodeError Instr) : Prop := ∀ i, d = .ok i → LegalWord cw i

theorem ReadsLegally.error {cw : CommandWord} {e : DecodeError} : ReadsLegally cw (.error e) := nofun

theorem ReadsLegally.ifZero {cw : CommandWord} {ok : Bool} {i : Instr} (h : ok = true → LegalWord cw i) :
    ReadsLegally cw (ifZero ok i) := by
  intro j hj
  obtain ⟨hok, rfl⟩ := ifZero_ok.mp hj
  exact h hok

theorem ReadsLegally.ite {cw : CommandWord} {c : Prop} [Decidable c] {x y : Except DecodeError Instr}
    (hx : c → ReadsLegally cw x) (hy : ReadsLegally cw y) : ReadsLegally cw (if c then x else y) := by
  split
  · exact hx ‹c›
  · exact hy

theorem decodeCommand_readsLegally (cw : CommandWord) : ReadsLegally cw (decodeCommand cw) := by
  unfold decodeCommand decodeOpcode
  exact .ite (fun h => .ifZero (.bufClr h)) <| .ite (fun h => .ifZero (.bufPush h)) <|
    .ite (fun h => .ifZero (.crcInit h)) <| .ite (fun h => .ifZero (.crcByte h)) <|
    .ite (fun h => .ifZero (.crcCompute h)) <| .ite (fun h => .ifZero (.bldRdbits h)) <|
    .ite (fun h => .ite (fun hfn => .ifZero (.bldRdhold h hfn)) .error) <| .ite (fun h => .ifZero (.bldWrcoil h)) <|
    .ite (fun h => .ifZero (.bldWraddr h)) <| .ite (fun h => .ifZero (.bldRaw h)) <|
    .ite (fun h => .ifZero (.decDecode h)) <| .ite (fun h => .ifZero (.cfgSet h)) .error

/-- The command decoder reads the legal words and no others. -/
theorem decodeCommand_ok_iff {cw : CommandWord} {i : Instr} : decodeCommand cw = .ok i ↔ LegalWord cw i := by
  refine ⟨decodeCommand_readsLegally cw i, fun h => ?_⟩
  cases h <;> simp [decodeCommand, decodeOpcode, ifZero, *]

/-- Adjacent slices of a command word join. -/
theorem cw_join (cw : CommandWord) {s k l t : Nat} (h : t = s + l) :
    cw.extractLsb' t k ++ cw.extractLsb' s l = cw.extractLsb' s (k + l) :=
  BitVec.extractLsb'_append_extractLsb'_eq_extractLsb' h

/-- The fields of a legal word, put side by side, are the whole word (30_encoding.md R51). -/
theorem LegalWord.encode_eq {cw : CommandWord} {i : Instr} (h : LegalWord cw i) : encode i = .command cw := by
  refine Eq.trans ?_ (congrArg Packet.command (slice_all cw))
  cases h with
  | bufClr hop hz | crcInit hop hz | crcCompute hop hz =>
    simp only [mbzZ, beq_iff_eq] at hz
    simp (disch := decide) only [encode, ← hop, ← hz, cwOp, cw_join]
  | bufPush hop hz | crcByte hop hz | bldWraddr hop hz | decDecode hop hz =>
    simp only [mbzB, beq_iff_eq] at hz
    simp (disch := decide) only [encode, ← hop, ← hz, cwOp, cwByte, cw_join]
  | bldRdbits hop hz =>
    simp only [mbzR, beq_iff_eq] at hz
    simp (disch := decide) only [encode, ← hop, ← hz, cwOp, cwByte, cwByte2, cwStart, cwCount, cw_join]
  | bldRdhold hop hfn hz =>
    simp only [mbzR, beq_iff_eq] at hz
    simp (disch := decide) only [encode, ← hop, ← hfn, ← hz, cwOp, cwByte, cwByte2, cwStart, cwCount, cw_join]
  | bldWrcoil hop hz =>
    simp only [mbzC, Bool.and_eq_true, beq_iff_eq] at hz
    obtain ⟨hhi, hlo⟩ := hz
    simp (disch := decide) only [encode, ← hop, ← hhi, ← hlo, cwOp, cwByte, cwByte2, cwOn, slice_bit, cw_join]
  | bldRaw hop hz =>
    simp only [mbzRaw, Bool.and_eq_true, beq_iff_eq] at hz
    obtain ⟨hhi, hlo⟩ := hz
    simp (disch := decide) only [encode, ← hop, ← hhi, ← hlo, cwOp, cwAppendCrc, slice_bit, cw_join]
  | cfgSet hop hz =>
    simp only [mbzF, Bool.and_eq_true, beq_iff_eq] at hz
    obtain ⟨hhi, hlo⟩ := hz
    simp (disch := decide) only [encode, ← hop, ← hhi, ← hlo, cwOp, cwFlags, cw_join]

/-- Settles O4: a command word is its fields side by side, a frame its bytes. -/
theorem decodedPacketIsItsEncoding : Obligations.DecodedPacketIsItsEncoding
  | .command _, _, h => (decodeCommand_ok_iff.mp h).encode_eq
  | .request _, _, h => encode_of_decodeRequest h
  | .response _, _, h => encode_of_decodeResponse h

/-! ## Masks and matches -/

theorem append_eq_append_iff {k l : Nat} {a c : BitVec k} {b d : BitVec l} : a ++ b = c ++ d ↔ a = c ∧ b = d := by
  refine ⟨fun h => ⟨?_, ?_⟩, fun ⟨hac, hbd⟩ => by rw [hac, hbd]⟩
  · simpa only [BitVec.extractLsb'_append_eq_left] using congrArg (BitVec.extractLsb' l k) h
  · simpa only [BitVec.extractLsb'_append_eq_right] using congrArg (BitVec.extractLsb' 0 l) h

/-- A mask and a match of two parts test the two parts of a slice. -/
theorem slice_and_append {w k l : Nat} (x : BitVec w) (s : Nat) (m p : BitVec k) (n q : BitVec l) :
    x.extractLsb' s (k + l) &&& (m ++ n) = p ++ q ↔
      x.extractLsb' (s + l) k &&& m = p ∧ x.extractLsb' s l &&& n = q := by
  rw [← slice_join, BitVec.and_append, append_eq_append_iff]

/-- A mask of ones tests every bit. -/
theorem slice_and_ones {w n : Nat} (x : BitVec w) (s : Nat) (p : BitVec n) :
    x.extractLsb' s n &&& BitVec.allOnes n = p ↔ x.extractLsb' s n = p := by rw [BitVec.and_allOnes]

/-- A mask of zeros tests nothing. -/
theorem slice_and_zeros {w n : Nat} (x : BitVec w) (s : Nat) : x.extractLsb' s n &&& 0#n = 0#n ↔ True := by simp

/-! The masks of the formats of 30_encoding.md R51 and R52, each as the fields it tests and those it leaves. -/

section
open BitVec (allOnes)
variable (cw : CommandWord) (opcode : Byte)

theorem fits_formatZ : cw &&& 0xFFFFFFFFFFFFFFFF#64 = opcode ++ 0#56 ↔ cwOp cw = opcode ∧ mbzZ cw = true := by
  simpa only [slice_and_ones, slice_all, mbzZ, beq_iff_eq] using!
    slice_and_append cw 0 (allOnes 8) opcode (allOnes 56) 0#56

theorem fits_formatB : cw &&& 0xFF00FFFFFFFFFFFF#64 = opcode ++ 0#8 ++ 0#48 ↔ cwOp cw = opcode ∧ mbzB cw = true := by
  simpa only [slice_and_append, slice_and_ones, slice_and_zeros, slice_all, and_true, mbzB, beq_iff_eq] using!
    slice_and_append cw 0 (allOnes 8 ++ 0#8) (opcode ++ 0#8) (allOnes 48) 0#48

theorem fits_formatR : cw &&& 0xFF000000000000FF#64 = opcode ++ 0#48 ++ 0#8 ↔ cwOp cw = opcode ∧ mbzR cw = true := by
  simpa only [slice_and_append, slice_and_ones, slice_and_zeros, slice_all, and_true, mbzR, beq_iff_eq] using!
    slice_and_append cw 0 (allOnes 8 ++ 0#48) (opcode ++ 0#48) (allOnes 8) 0#8

/-- Format R with the function code fixed, as in the row of BLD.RDHOLD. -/
theorem fits_formatR_fn (fn : Byte) : cw &&& 0xFF00FF00000000FF#64 = opcode ++ 0#8 ++ fn ++ 0#32 ++ 0#8 ↔
    cwOp cw = opcode ∧ cwByte2 cw = fn ∧ mbzR cw = true := by
  simpa only [slice_and_append, slice_and_ones, slice_and_zeros, slice_all, and_true, and_assoc, mbzR, beq_iff_eq] using!
    slice_and_append cw 0 (allOnes 8 ++ 0#8 ++ allOnes 8 ++ 0#32) (opcode ++ 0#8 ++ fn ++ 0#32) (allOnes 8) 0#8

theorem fits_formatC : cw &&& 0xFF0000FEFFFFFFFF#64 = opcode ++ 0#16 ++ 0#7 ++ 0#1 ++ 0#32 ↔
    cwOp cw = opcode ∧ mbzC cw = true := by
  simpa only [slice_and_append, slice_and_ones, slice_and_zeros, slice_all, and_true, and_assoc, mbzC, Bool.and_eq_true,
    beq_iff_eq] using!
    slice_and_append cw 0 (allOnes 8 ++ 0#16 ++ allOnes 7 ++ 0#1) (opcode ++ 0#16 ++ 0#7 ++ 0#1) (allOnes 32) 0#32

theorem fits_formatF : cw &&& 0xFFF8FFFFFFFFFFFF#64 = opcode ++ 0#5 ++ 0#3 ++ 0#48 ↔
    cwOp cw = opcode ∧ mbzF cw = true := by
  simpa only [slice_and_append, slice_and_ones, slice_and_zeros, slice_all, and_true, and_assoc, mbzF, Bool.and_eq_true,
    beq_iff_eq] using!
    slice_and_append cw 0 (allOnes 8 ++ allOnes 5 ++ 0#3) (opcode ++ 0#5 ++ 0#3) (allOnes 48) 0#48

/-- Format F with the two more zero bits of BLD.RAW (30_encoding.md R52). -/
theorem fits_formatRaw : cw &&& 0xFFFEFFFFFFFFFFFF#64 = opcode ++ 0#7 ++ 0#1 ++ 0#48 ↔
    cwOp cw = opcode ∧ mbzRaw cw = true := by
  simpa only [slice_and_append, slice_and_ones, slice_and_zeros, slice_all, and_true, and_assoc, mbzRaw, Bool.and_eq_true,
    beq_iff_eq] using!
    slice_and_append cw 0 (allOnes 8 ++ allOnes 7 ++ 0#1) (opcode ++ 0#7 ++ 0#1) (allOnes 48) 0#48

end

/-- A row of the opcode table that fits a word makes it a legal word of the row's operation. -/
theorem legalWord_of_fits {cw : CommandWord} {row : CommandRow} (hrow : row ∈ commandRows)
    (h : cw &&& row.mask = row.pattern) : ∃ i, LegalWord cw i ∧ i.mnemonic = row.mnemonic := by
  simp only [commandRows, List.mem_cons, List.not_mem_nil, or_false] at hrow
  obtain rfl | rfl | rfl | rfl | rfl | rfl | rfl | rfl | rfl | rfl | rfl | rfl := hrow
  · exact ⟨_, ((fits_formatZ cw 0x01#8).mp h).elim .bufClr, rfl⟩
  · exact ⟨_, ((fits_formatB cw 0x02#8).mp h).elim .bufPush, rfl⟩
  · exact ⟨_, ((fits_formatZ cw 0x10#8).mp h).elim .crcInit, rfl⟩
  · exact ⟨_, ((fits_formatB cw 0x11#8).mp h).elim .crcByte, rfl⟩
  · exact ⟨_, ((fits_formatZ cw 0x12#8).mp h).elim .crcCompute, rfl⟩
  · exact ⟨_, ((fits_formatR cw 0x20#8).mp h).elim .bldRdbits, rfl⟩
  · obtain ⟨hop, hfn, hz⟩ := (fits_formatR_fn cw 0x21#8 0x03#8).mp h
    exact ⟨_, .bldRdhold hop hfn hz, rfl⟩
  · exact ⟨_, ((fits_formatC cw 0x22#8).mp h).elim .bldWrcoil, rfl⟩
  · exact ⟨_, ((fits_formatB cw 0x23#8).mp h).elim .bldWraddr, rfl⟩
  · exact ⟨_, ((fits_formatRaw cw 0x24#8).mp h).elim .bldRaw, rfl⟩
  · exact ⟨_, ((fits_formatB cw 0x30#8).mp h).elim .decDecode, rfl⟩
  · exact ⟨_, ((fits_formatF cw 0x40#8).mp h).elim .cfgSet, rfl⟩

/-- A legal word fits the row of its operation. -/
theorem LegalWord.fits {cw : CommandWord} {i : Instr} (h : LegalWord cw i) :
    ∃ row ∈ commandRows, row.mnemonic = i.mnemonic ∧ cw &&& row.mask = row.pattern := by
  cases h with
  | bufClr hop hz => exact ⟨commandRows[0], by decide, rfl, (fits_formatZ cw 0x01#8).mpr ⟨hop, hz⟩⟩
  | bufPush hop hz => exact ⟨commandRows[1], by decide, rfl, (fits_formatB cw 0x02#8).mpr ⟨hop, hz⟩⟩
  | crcInit hop hz => exact ⟨commandRows[2], by decide, rfl, (fits_formatZ cw 0x10#8).mpr ⟨hop, hz⟩⟩
  | crcByte hop hz => exact ⟨commandRows[3], by decide, rfl, (fits_formatB cw 0x11#8).mpr ⟨hop, hz⟩⟩
  | crcCompute hop hz => exact ⟨commandRows[4], by decide, rfl, (fits_formatZ cw 0x12#8).mpr ⟨hop, hz⟩⟩
  | bldRdbits hop hz => exact ⟨commandRows[5], by decide, rfl, (fits_formatR cw 0x20#8).mpr ⟨hop, hz⟩⟩
  | bldRdhold hop hfn hz => exact ⟨commandRows[6], by decide, rfl, (fits_formatR_fn cw 0x21#8 0x03#8).mpr ⟨hop, hfn, hz⟩⟩
  | bldWrcoil hop hz => exact ⟨commandRows[7], by decide, rfl, (fits_formatC cw 0x22#8).mpr ⟨hop, hz⟩⟩
  | bldWraddr hop hz => exact ⟨commandRows[8], by decide, rfl, (fits_formatB cw 0x23#8).mpr ⟨hop, hz⟩⟩
  | bldRaw hop hz => exact ⟨commandRows[9], by decide, rfl, (fits_formatRaw cw 0x24#8).mpr ⟨hop, hz⟩⟩
  | decDecode hop hz => exact ⟨commandRows[10], by decide, rfl, (fits_formatB cw 0x30#8).mpr ⟨hop, hz⟩⟩
  | cfgSet hop hz => exact ⟨commandRows[11], by decide, rfl, (fits_formatF cw 0x40#8).mpr ⟨hop, hz⟩⟩

/-- The rows of the opcode table have different mnemonics. -/
theorem commandRow_eq_of_mnemonic : ∀ r ∈ commandRows, ∀ r' ∈ commandRows, r.mnemonic = r'.mnemonic → r = r' := by decide

/-- Settles O5: the legal words of an operation are those that fit its row. -/
theorem decoderFollowsMatchAndMask : Obligations.DecoderFollowsMatchAndMask := by
  intro cw row hrow
  constructor
  · intro h
    obtain ⟨i, hi, hname⟩ := legalWord_of_fits hrow h
    exact ⟨i, decodeCommand_ok_iff.mpr hi, hname⟩
  · rintro ⟨i, hd, hname⟩
    obtain ⟨row', hrow', hname', hfits⟩ := (decodeCommand_ok_iff.mp hd).fits
    rwa [commandRow_eq_of_mnemonic row hrow row' hrow' (hname.symm.trans hname'.symm)]

/-! ## Illegal words -/

theorem ifZero_error_iff {ok : Bool} {i : Instr} : (∃ e, ifZero ok i = .error e) ↔ ok = false := by
  cases ok <;> simp [ifZero]

theorem ite_ifZero_error_iff {c : Prop} [Decidable c] {ok : Bool} {i : Instr} {e₀ : DecodeError} :
    (∃ e, (if c then ifZero ok i else .error e₀) = .error e) ↔ ok = false ∨ ¬c := by
  by_cases hc : c <;> simp [hc, ifZero_error_iff]

/-- Two slices side by side are zero when both are. -/
theorem slice_eq_zero_iff {w : Nat} (x : BitVec w) (s k l : Nat) :
    x.extractLsb' s (k + l) = 0#(k + l) ↔ x.extractLsb' (s + l) k = 0#k ∧ x.extractLsb' s l = 0#l := by
  rw [← slice_join, ← BitVec.zero_append_zero, append_eq_append_iff]

/-- The zero bits of BLD.RAW are those of format F and two more (30_encoding.md R52). -/
theorem mbzRaw_eq (cw : CommandWord) : mbzRaw cw = (mbzF cw && cw.extractLsb' 49 2 == 0#2) := by
  rw [Bool.eq_iff_iff]
  simp only [mbzRaw, mbzF, Bool.and_eq_true, beq_iff_eq, slice_eq_zero_iff cw 49 5 2]
  tauto

theorem decodeOpcode_unknown {opcode : Byte} {cw : CommandWord}
    (h : opcode ∉ [0x01#8, 0x02#8, 0x10#8, 0x11#8, 0x12#8, 0x20#8, 0x21#8, 0x22#8, 0x23#8, 0x24#8, 0x30#8, 0x40#8]) :
    decodeOpcode opcode cw = .error .unknownOpcode := by
  simp only [List.mem_cons, List.not_mem_nil, or_false, not_or] at h
  simp [decodeOpcode, h]

/-- Settles O6: the twelve opcodes one by one, each by the zero bits of its format, and the other opcodes. -/
theorem illegalWordsAreThoseOfTheRule : Obligations.IllegalWordsAreThoseOfTheRule := by
  intro cw
  unfold decodeCommand cwOp
  rw [← cwByte2]
  generalize cw.extractLsb' 56 8 = opcode
  by_cases hop : opcode ∈ [0x01#8, 0x02#8, 0x10#8, 0x11#8, 0x12#8, 0x20#8, 0x21#8, 0x22#8, 0x23#8, 0x24#8, 0x30#8, 0x40#8]
  · simp only [List.mem_cons, List.not_mem_nil, or_false] at hop
    obtain rfl | rfl | rfl | rfl | rfl | rfl | rfl | rfl | rfl | rfl | rfl | rfl := hop <;>
      simp [decodeOpcode, ifZero_error_iff, ite_ifZero_error_iff, mbzZ, mbzB, mbzR, mbzC, mbzRaw_eq, mbzF,
        imp_iff_not_or, or_assoc]
  · exact iff_of_true ⟨_, decodeOpcode_unknown hop⟩ (.inl hop)

end Sys2Proof.Machine

/-! SUPPORT. The wire rows by their encoding: a request is a write of its frame, a response returned to a waiting transaction is
decoded by the arm of its function code when the enabled strict checks pass. -/

namespace Sys2Proof.Machine

/-! ## Requests -/

/-- A request row is the host's write of its frame, whose byte 1 is the function code its builder is known by
(30_encoding.md R56 to R58; 45_transaction.md R136). -/
theorem exec_request {i : Instr} {frame : List Byte} (h : encode i = .request frame) :
    ∃ fn, frame[1]? = some fn ∧ ∀ s, exec i s = .next (sendFrame (expectedFor i fn) frame s) := by
  cases i with
  | reqRdcoils | reqRdinputs | reqRdhold | reqWrcoil | reqWraddr =>
    cases h
    exact ⟨_, rfl, fun _ => rfl⟩
  | _ => cases h

/-- A frame sent leaves what `FrameWritten` says. -/
theorem sendFrame_frameWritten (fn : Option Byte) (frame : List Byte) (s : State) :
    State.FrameWritten frame (settle s) (sendFrame fn frame s) := by
  by_cases h : s.env.channel.isSome = true ∧ Config.writeSucceeds (settle s).env.oracle = true
  · rw [sendFrame_taken fn frame s h.1 h.2]
    simp [State.FrameWritten, h]
  · rw [sendFrame_failed fn frame s h]
    simp [State.FrameWritten, h]

theorem sendFrame_expFn (fn : Option Byte) (frame : List Byte) (s : State) :
    (sendFrame fn frame s).env.expFn = fn.getD (Config.rawExpectedFn (settle s).env.oracle) := rfl

/-- The script plays no part in a write. -/
theorem sendFrame_setProgram (fn : Option Byte) (frame : List Byte) (s : State) (p : List HostAction) :
    sendFrame fn frame (s.setProgram p) = (sendFrame fn frame s).setProgram p := by
  simp only [sendFrame, settle_setProgram]
  rfl

/-- Settles O57: a row is its encoding written, a frame with no layout the same with no function code known. -/
theorem requestFramesAreWrittenVerbatim : Obligations.RequestFramesAreWrittenVerbatim := by
  constructor
  · rintro i frame s u henc rfl
    obtain ⟨fn, hfn, hexec⟩ := exec_request henc
    refine ⟨settle_idle s, _, hexec s, sendFrame_frameWritten _ frame s, sendFrame_program _ frame s, fun hwf => ?_, fun hwf => ?_⟩
    · rw [sendFrame_expFn, expectedFor, if_pos hwf, hfn]
      rfl
    · rw [sendFrame_expFn, expectedFor, if_neg (by simp [hwf])]
      rfl
  · rintro frame e s u rest hp hd rfl
    refine ⟨(sendFrame none frame s).setProgram rest, ?_, sendFrame_frameWritten none frame s, rfl, rfl⟩
    rw [step_cons s _ rest hp, ← sendFrame_setProgram]
    exact runPacket_error (p := .request frame) hd _

/-! ## Responses -/

/-- A response row is what the host's read returns, byte by byte as it is encoded. -/
theorem exec_response {i : Instr} {raw : List Byte} (h : encode i = .response raw) (s : State) :
    exec i s = .next (receiveFrame raw s) := by
  cases i with
  | rspRdcoils | rspRdinputs | rspRdhold | rspWrcoil | rspWrreg =>
    cases h
    rfl
  | _ => cases h

/-- Bytes on the link are received, with a layout of the table or without (30_encoding.md R69). -/
theorem step_response {raw : List Byte} {s : State} {rest : List HostAction}
    (hp : s.env.program = .packet (.response raw) :: rest) : step s = .next (receiveFrame raw (s.setProgram rest)) := by
  rw [step_cons s _ rest hp, runAction]
  cases hd : decode (.response raw) with
  | ok i => exact (runPacket_ok hd _).trans (exec_response (encode_of_decodeResponse hd) _)
  | error e => exact runPacket_error hd _

/-- The machine after a waiting transaction took the operand `raw` and decoded it as `r` (45_transaction.md R129). -/
def State.received (raw : List Byte) (r : Response) (s : State) : State where
  blk := complete (writeResult r (s.blk.setIbuf raw))
  bufMax := s.bufMax
  env := { s.env with phase := .decoded, outcome := .response r }

/-- A waiting transaction takes the first 8 bytes, for which every legal capacity has room, and decodes them. -/
theorem receiveFrame_received {s : State} (hw : s.env.awaiting = true) (hcap : s.capacityLegal) (raw : List Byte) :
    receiveFrame raw s =
      s.received (raw.take 8) (decodeRaw s.blk.strictEcho s.blk.strictCrc s.env.expFn (raw.take 8)) := by
  have hfit : ∀ n, s.bufMax = some n → (raw.take 8).length ≤ n := by
    intro n hn
    have h9 : 9 ≤ n := hcap n hn
    have := raw.length_take_le 8
    omega
  rw [receiveFrame_waiting raw s hw, Config.readBudget, finishTransaction_fits _ _ _ hfit, decodeOperand_eq]
  rfl

@[simp] theorem State.received_ibuf (raw : List Byte) (r : Response) (s : State) : (s.received raw r).blk.ibuf = raw := by
  cases r <;> rfl

/-- Its registers are those of DEC.DECODE on the operand (43_response_decoder.md R106). -/
theorem exec_decDecode_received (fn : Byte) (raw : List Byte) (s : State) :
    exec (.decDecode fn) { s with blk := { s.blk with ibuf := raw } } =
      .next { s with blk := (s.received raw (decodeRaw s.blk.strictEcho s.blk.strictCrc fn raw)).blk } := by
  show Host.Outcome.next { s with blk := decodeOperand fn (s.blk.setIbuf raw) } = _
  rw [decodeOperand, Block.responseFor_eq]
  rfl

/-- What was written as a result is what the registers hold (10_state.md R15). -/
theorem Block.response_writeResult (r : Response) (b : Block) : (complete (writeResult r b)).response = some r := by
  cases r <;> rfl

/-! ## The strict checks -/

theorem leBytes_inj {v w : U16} : leBytes v = leBytes w ↔ v = w := by
  refine ⟨fun h => ?_, congrArg leBytes⟩
  obtain ⟨hlo, hhi⟩ : loByte v = loByte w ∧ hiByte v = hiByte w := by simpa [leBytes] using h
  rw [← be16_hi_lo v, ← be16_hi_lo w, hlo, hhi]

/-- The trailer test compares the trailer's value with the checksum. -/
theorem trailerOk_append_leBytes (p : List Byte) (crc : U16) : trailerOk (p ++ leBytes crc) = (crc == crc16 p) := by
  rw [Bool.eq_iff_iff]
  simp [trailerOk, crcBytes, leBytes_inj, show (leBytes crc).length = 2 from rfl]

/-- A response is well-formed when its bytes pass the strict CRC test (43_response_decoder.md R115). -/
theorem wellFormed_response {i : Instr} {raw : List Byte} (h : encode i = .response raw) : i.wellFormed = trailerOk raw := by
  cases i with
  | rspRdcoils | rspRdinputs | rspRdhold | rspWrcoil | rspWrreg =>
    cases h
    rw [wireFrame, trailerOk_append_leBytes]
    exact Bool.and_true _
  | _ => cases h

/-- A response row has the four bytes the decoder asks for, and one read takes it whole (30_encoding.md R68). -/
theorem length_response {i : Instr} {raw : List Byte} (h : encode i = .response raw) : 4 ≤ raw.length ∧ raw.length ≤ 8 := by
  cases i with
  | rspRdcoils | rspRdinputs | rspRdhold | rspWrcoil | rspWrreg =>
    cases h
    simp [wireFrame, Instr.wirePayload, beBytes, leBytes]
  | _ => cases h

/-- The enabled strict checks pass for the response `i` with the function code `fn` (43_response_decoder.md R114, R115). -/
def State.ChecksPass (s : State) (i : Instr) (fn : Byte) : Prop :=
  (s.blk.strictCrc = true → i.wellFormed = true) ∧ (s.blk.strictEcho = true → s.env.expFn = fn)

/-- With four bytes or more and an enabled check failed, the result is Malformed. -/
theorem decodeRaw_failed {e c : Bool} {fn f : Byte} {raw : List Byte} (h4 : 4 ≤ raw.length) (hf : raw[1]? = some f)
    (h : ¬ ((c = true → trailerOk raw = true) ∧ (e = true → fn = f))) : decodeRaw e c fn raw = .malformed := by
  obtain ⟨_, rfl⟩ := List.getElem?_eq_some_iff.mp hf
  unfold decodeRaw
  rw [if_neg (by omega), dif_neg (by omega)]
  split_ifs with hcrc hecho
  · rfl
  · rfl
  · exact absurd ⟨by simpa using hcrc, fun he => by_contra fun hne => hecho ⟨he, Ne.symm hne⟩⟩ h

section
variable {i : Instr} {raw : List Byte} {s : State} {fn : Byte} (henc : encode i = .response raw)
  (hw : s.env.awaiting = true) (hcap : s.capacityLegal) (hfn : raw[1]? = some fn)
include henc hw hcap

/-- A response row returned to a waiting transaction is taken whole and decoded. -/
theorem exec_response_received :
    exec i s = .next (s.received raw (decodeRaw s.blk.strictEcho s.blk.strictCrc s.env.expFn raw)) := by
  rw [exec_response henc, receiveFrame_received hw hcap, List.take_of_length_le (length_response henc).2]

include hfn

theorem exec_response_passed {r : Response} (harm : decodeArms raw (length_response henc).1 = r) (h : s.ChecksPass i fn) :
    exec i s = .next (s.received raw r) := by
  obtain ⟨hcrc, hecho⟩ := h
  rw [wellFormed_response henc] at hcrc
  rw [exec_response_received henc hw hcap, decodeRaw_passed (length_response henc).1 hcrc hfn fun he => (hecho he).symm, harm]

theorem exec_response_failed (h : ¬ s.ChecksPass i fn) : exec i s = .next (s.received raw .malformed) := by
  rw [State.ChecksPass, wellFormed_response henc] at h
  rw [exec_response_received henc hw hcap, decodeRaw_failed (length_response henc).1 hfn h]

end

/-! ## The arms on the response layouts (43_response_decoder.md R109 to R112) -/

section
variable (slave count status fn hi lo c0 c1 : Byte) (addr value : U16)

theorem decodeArms_bits (hfn : fn = 0x01#8 ∨ fn = 0x02#8) (h) :
    decodeArms [slave, fn, count, status, c0, c1] h = .bitStatus status := by
  simp [decodeArms, hfn]

theorem decodeArms_register (h) : decodeArms [slave, 0x03#8, count, hi, lo, c0, c1] h = .registerByteValue lo := by
  simp [decodeArms]

theorem decodeArms_coil (h) :
    decodeArms [slave, 0x05#8, hiByte addr, loByte addr, hiByte value, loByte value, c0, c1] h = .writeAck addr value := by
  simp [decodeArms]

theorem decodeArms_wrreg (h) :
    decodeArms [slave, 0x10#8, hiByte addr, loByte addr, hiByte value, loByte value, c0, c1] h = .malformed := by
  simp [decodeArms]

end

/-- Settles O58: the bit-status arm when the checks pass, Malformed when one fails. -/
theorem bitStatusFramesDecode : Obligations.BitStatusFramesDecode := by
  intro i slave byteCount status fn crc raw s hrow henc hw hcap
  obtain ⟨rfl, hfn⟩ : raw = [slave, fn, byteCount, status, loByte crc, hiByte crc] ∧ (fn = 0x01#8 ∨ fn = 0x02#8) := by
    obtain ⟨rfl, rfl⟩ | ⟨rfl, rfl⟩ := hrow <;> cases henc
    · exact ⟨rfl, .inl rfl⟩
    · exact ⟨rfl, .inr rfl⟩
  refine ⟨fun hcrc hecho => exec_response_passed henc hw hcap rfl (decodeArms_bits _ _ _ _ _ _ hfn _) ⟨hcrc, hecho⟩,
    fun hfail => exec_response_failed henc hw hcap rfl ?_⟩
  rintro ⟨hcrc, hecho⟩
  obtain ⟨hon, hbad⟩ | ⟨hon, hne⟩ := hfail
  · exact absurd (hcrc hon) (by simp [hbad])
  · exact hne (hecho hon)

/-- Settles O59: each row by its arm or by the check that fails, and any other bytes by what a read and a decode do. -/
theorem otherResponseFramesDecode : Obligations.OtherResponseFramesDecode := by
  constructor
  · intro slave byteCount hi lo addr value crc s hw hcap malformed register coil passes
    have hregister : encode (.rspRdhold slave byteCount hi lo crc) = .response register := rfl
    have hcoil : encode (.rspWrcoil slave addr value crc) = .response coil := rfl
    have hwrreg : encode (.rspWrreg slave addr value crc) = .response (wireFrame (.rspWrreg slave addr value crc) crc) := rfl
    refine ⟨exec_response_passed hregister hw hcap rfl (decodeArms_register ..), exec_response_failed hregister hw hcap rfl,
      exec_response_passed hcoil hw hcap rfl (decodeArms_coil ..), exec_response_failed hcoil hw hcap rfl, ?_⟩
    by_cases h : s.ChecksPass (.rspWrreg slave addr value crc) 0x10#8
    · exact exec_response_passed hwrreg hw hcap rfl (decodeArms_wrreg ..) h
    · exact exec_response_failed hwrreg hw hcap rfl h
  · intro raw s rest hp hw hcap
    exact ⟨_, _, (step_response hp).trans (congrArg _ (receiveFrame_received (s := s.setProgram rest) hw hcap raw)),
      State.received_ibuf .., rfl, exec_decDecode_received .., rfl, Block.response_writeResult ..⟩

end Sys2Proof.Machine

/-! SUPPORT. The CRC unit: the shift step in numbers, what one byte does to the register, when a trailer brings it to zero
(41_crc.md R89), and the unit's command words. -/

namespace Sys2Proof.Machine

/-! ## The shift register -/

theorem crcBit_of_even {r : U16} (h : r.getLsbD 0 = false) : crcBit r = r >>> 1 := by
  rw [crcBit, h, if_neg Bool.false_ne_true]

theorem crcBit_of_odd {r : U16} (h : r.getLsbD 0 = true) : crcBit r = (r >>> 1) ^^^ Config.crcPoly := by
  rw [crcBit, h, if_pos rfl]

/-- As long as the low bits are zero, nothing is fed back and the register only shifts. -/
theorem crcSteps_of_low_zero (n : Nat) (r : U16) (h : ∀ i < n, r.getLsbD i = false) : crcSteps n r = r >>> n := by
  induction n generalizing r with
  | zero => rfl
  | succ n ih =>
    have hshift : ∀ i < n, (r >>> 1).getLsbD i = false := fun i hi => by
      rw [BitVec.getLsbD_ushiftRight]
      exact h _ (by omega)
    rw [crcSteps, crcBit_of_even (h 0 (by omega)), ih _ hshift, ← BitVec.shiftRight_add, Nat.add_comm 1 n]

/-! ## One byte -/

/-- Absorbing a byte touches the low byte of the register only (41_crc.md R81). -/
theorem xor_setWidth_eq_be16 (r : U16) (b : Byte) : r ^^^ b.setWidth 16 = be16 (hiByte r) (loByte r ^^^ b) := by
  have hhi : hiByte (r ^^^ b.setWidth 16) = hiByte r := by
    apply BitVec.eq_of_getLsbD_eq
    intro i hi
    simp [hiByte, hi]
  have hlo : loByte (r ^^^ b.setWidth 16) = loByte r ^^^ b := by
    apply BitVec.eq_of_getLsbD_eq
    intro i hi
    have : i < 16 := by omega
    simp [loByte, hi, this]
  rw [← hhi, ← hlo, be16_hi_lo]

theorem crcByte_eq_be16 (r : U16) (b : Byte) : crcByte r b = crcSteps 8 (be16 (hiByte r) (loByte r ^^^ b)) :=
  congrArg (crcSteps 8) (xor_setWidth_eq_be16 r b)

theorem crcByte_left_inj {r q : U16} {b : Byte} : crcByte r b = crcByte q b ↔ r = q :=
  ⟨fun h => (BitVec.xor_left_inj _).mp (crcSteps_injective 8 _ _ h), fun h => h ▸ rfl⟩

theorem crcByte_eq_zero_iff {r : U16} {b : Byte} : crcByte r b = 0#16 ↔ r = b.setWidth 16 :=
  (crcSteps_zero_iff 8 _).trans BitVec.xor_eq_zero_iff

/-- A zero low byte moves the high byte down. -/
theorem crcSteps_be16_zero (b : Byte) : crcSteps 8 (be16 b 0#8) = b.setWidth 16 := by
  have hlow : ∀ i < 8, (be16 b 0#8).getLsbD i = false := fun i hi => by
    rw [be16, BitVec.getLsbD_append, if_pos hi, BitVec.getLsbD_zero]
  rw [crcSteps_of_low_zero 8 _ hlow]
  apply BitVec.eq_of_getLsbD_eq
  intro i hi
  rw [BitVec.getLsbD_ushiftRight, be16, BitVec.getLsbD_append, if_neg (by omega), Nat.add_sub_cancel_left]
  simp [hi]

/-- A register that absorbs its own low byte is left with its high byte, moved down. -/
theorem crcByte_loByte (r : U16) : crcByte r (loByte r) = (hiByte r).setWidth 16 := by
  rw [crcByte_eq_be16, BitVec.xor_self, crcSteps_be16_zero]

/-! ## The trailer -/

/-- The register absorbs a trailer to zero exactly when it held the trailer's value. -/
theorem foldl_leBytes_eq_zero_iff (r v : U16) : (leBytes v).foldl crcByte r = 0#16 ↔ v = r := by
  calc crcByte (crcByte r (loByte v)) (hiByte v) = 0#16
    _ ↔ crcByte r (loByte v) = (hiByte v).setWidth 16 := crcByte_eq_zero_iff
    _ ↔ crcByte r (loByte v) = crcByte v (loByte v) := by rw [crcByte_loByte]
    _ ↔ v = r := crcByte_left_inj.trans eq_comm

/-- Bytes with room for a trailer end in one. -/
theorem exists_eq_append_leBytes {raw : List Byte} (h : 2 ≤ raw.length) : ∃ p v, raw = p ++ leBytes v := by
  obtain ⟨lo, hi, htail⟩ := List.length_eq_two.mp (show (raw.drop (raw.length - 2)).length = 2 by simp; omega)
  refine ⟨raw.take (raw.length - 2), be16 hi lo, ?_⟩
  rw [leBytes, loByte_be16, hiByte_be16, ← htail, List.take_append_drop]

/-- The strict CRC test passes exactly on the frames of residue zero (41_crc.md R89 (b)). -/
theorem trailerOk_iff {raw : List Byte} (h : 2 ≤ raw.length) : trailerOk raw = true ↔ crc16 raw = 0#16 := by
  obtain ⟨p, v, rfl⟩ := exists_eq_append_leBytes h
  rw [trailerOk_append_leBytes, crc16_append, foldl_leBytes_eq_zero_iff, beq_iff_eq]

/-! ## The operations -/

theorem exec_crcInit (s : State) : exec .crcInit s = .next (s.setBlk (complete (s.blk.setCrc Config.crcInit))) := rfl

theorem exec_crcByte (b : Byte) (s : State) :
    exec (.crcByte b) s = .next (s.setBlk (complete (s.blk.setCrc (crcByte s.blk.crc b)))) := rfl

theorem exec_crcCompute (s : State) :
    exec .crcCompute s = .next (s.setBlk (complete (s.blk.setCrc (crc16 s.blk.ibuf)))) := by
  rw [← s.blk.operand_eq]
  rfl

/-- CRC.BYTE words run one by one absorb their bytes in order. -/
theorem run_crcByteWords (bytes : List Byte) (rest : List HostAction) (s : State) (he : s.blk.err = .noError)
    (hp : s.env.program = bytes.map (fun b => op (.crcByte b)) ++ rest) :
    Host.Core.run Sys2Proof.core bytes.length s =
      .next ((s.setProgram rest).setBlk (complete (s.blk.setCrc (bytes.foldl crcByte s.blk.crc)))) := by
  induction bytes generalizing s with
  | nil =>
    cases (show s.env.program = rest from hp)
    rw [complete, ← he]
    rfl
  | cons b bytes ih =>
    have hstep := (step_op (i := .crcByte b) rfl hp).trans (exec_crcByte b _)
    exact (run_succ _ _ _ hstep).trans (ih _ rfl rfl)

/-! ## The statements -/

/-- Settles O16: the register and the byte enter only as the two bytes of their XOR. -/
theorem crcByteDependsThroughLowXor : Obligations.CrcByteDependsThroughLowXor := by
  intro r q b c hhi hlo
  rw [crcByte_eq_be16, crcByte_eq_be16, hhi, hlo]

/-- Settles O17: the trailer is compared as the strict CRC test does it. -/
theorem trailerIsRightIffResidueIsZero : Obligations.TrailerIsRightIffResidueIsZero :=
  fun _ h => beq_iff_eq.symm.trans (trailerOk_iff h)

/-- Settles O18: CRC.INIT starts the fold, the CRC.BYTE words are its steps. -/
theorem streamingGivesChecksum : Obligations.StreamingGivesChecksum := by
  intro s bytes rest hp
  have hinit := (step_op (i := .crcInit) rfl hp).trans (exec_crcInit _)
  exact (run_succ _ _ _ hinit).trans (run_crcByteWords bytes rest _ rfl rfl)

/-- Settles O11, by the bit that the step tests. -/
theorem crcBitIsShiftAndConditionalXor : Obligations.CrcBitIsShiftAndConditionalXor := by
  intro r
  have hbit : r.getLsbD 0 = decide (r.toNat % 2 = 1) := Nat.testBit_zero r.toNat
  have hshift : (r >>> 1).toNat = r.toNat / 2 := by rw [BitVec.toNat_ushiftRight, Nat.shiftRight_one]
  split
  next hodd => rw [crcBit_of_odd (hbit.trans (decide_eq_true hodd)), BitVec.toNat_xor, hshift]; rfl
  next heven => rw [crcBit_of_even (hbit.trans (decide_eq_false heven)), hshift]

/-- Settles O12: nothing is absorbed, so the initial value is left. -/
theorem emptyChecksumIsAllOnes : Obligations.EmptyChecksumIsAllOnes := ⟨rfl, rfl⟩

/-- Settles O13: the word is the operation's encoding, the next state its meaning. -/
theorem crcInitResult : Obligations.CrcInitResult := ⟨decodeOfEncodeIsIdentity .crcInit, exec_crcInit⟩

/-- Settles O14: the eight steps of one byte written out. -/
theorem crcByteResult : Obligations.CrcByteResult := exec_crcByte

/-- Settles O15: the operand is the whole of `IBUF`. -/
theorem crcComputeResult : Obligations.CrcComputeResult := ⟨decodeOfEncodeIsIdentity .crcCompute, exec_crcCompute⟩

end Sys2Proof.Machine

/-! SUPPORT. The frame encoder: what each builder leaves, in the cases of its own test (42_frame_encoder.md R91 to R97), the wire
row that its frame is, and what the decoder makes of the echo of a write-coil frame. -/

namespace Sys2Proof.Machine

/-! ## Operands and layouts -/

theorem channelValid_iff {ch : Byte} {ch4 : Bool} : channelValid ch ch4 = true ↔ ch.toNat ≤ if ch4 then 3 else 7 := by
  cases ch4 <;> exact decide_eq_true_iff

theorem channelValid_eq_false_iff {ch : Byte} {ch4 : Bool} :
    channelValid ch ch4 = false ↔ (if ch4 then 3 else 7) < ch.toNat := by
  rw [← Bool.not_eq_true, channelValid_iff, Nat.not_le]

/-- A channel valid in either mode is one of the eight (10_state.md R28). -/
theorem toNat_le_seven_of_channelValid {ch : Byte} {ch4 : Bool} (h : channelValid ch ch4 = true) : ch.toNat ≤ 7 := by
  have hle := channelValid_iff.mp h
  split at hle <;> omega

/-- The coil value written out (30_encoding.md R65): its low byte is 0 either way. -/
theorem writeCoilPayload_eq (slave ch : Byte) (on : Bool) :
    writeCoilPayload slave ch on = [slave, 0x05#8, 0x00#8, ch, if on then 0xFF#8 else 0x00#8, 0x00#8] := by
  cases on <;> rfl

/-! ## The builders -/

theorem exec_bldRdbits_coded (slave : Byte) {fn : Byte} (start count : U16) (s : State) (h : fn = 0x01#8 ∨ fn = 0x02#8) :
    exec (.bldRdbits slave fn start count) s =
      .next (s.setBlk (succeedWith (appendCrc (readPayload slave fn start count)) false s.blk)) :=
  if_neg (not_and_or.mpr (h.imp not_not_intro not_not_intro))

theorem exec_bldRdbits_miscoded (slave : Byte) {fn : Byte} (start count : U16) (s : State) (h₁ : fn ≠ 0x01#8)
    (h₂ : fn ≠ 0x02#8) : exec (.bldRdbits slave fn start count) s = .next (s.setBlk (raiseEncodingError s.blk)) :=
  if_pos ⟨h₁, h₂⟩

theorem exec_bldRdhold (slave : Byte) (start count : U16) (s : State) :
    exec (.bldRdhold slave start count) s =
      .next (s.setBlk (succeedWith (appendCrc (readPayload slave 0x03#8 start count)) false s.blk)) := rfl

theorem exec_bldWrcoil_valid (slave : Byte) {ch : Byte} (on : Bool) {s : State} (h : channelValid ch s.blk.ch4 = true) :
    exec (.bldWrcoil slave ch on) s =
      .next (s.setBlk (succeedWith (appendCrc (writeCoilPayload slave ch on)) false s.blk)) :=
  if_neg (by simp [h])

theorem exec_bldWrcoil_invalid (slave : Byte) {ch : Byte} (on : Bool) {s : State} (h : channelValid ch s.blk.ch4 = false) :
    exec (.bldWrcoil slave ch on) s = .next (s.setBlk (raiseEncodingError s.blk)) :=
  if_pos h

theorem exec_bldWraddr (new : Byte) (s : State) :
    exec (.bldWraddr new) s =
      .next (s.setBlk (succeedWith (appendCrc (writeAddrPayload new)) (warnOfAddr new) s.blk)) := rfl

theorem exec_bldRaw (withCrc : Bool) (s : State) :
    exec (.bldRaw withCrc) s =
      .next (s.setBlk (succeedWith (if withCrc then appendCrc s.blk.ibuf else s.blk.ibuf) false s.blk)) := by
  rw [← s.blk.operand_eq]
  rfl

/-- BLD.WRCOIL that leaves a valid frame found its channel valid. -/
theorem channelValid_of_bldWrcoil {slave ch : Byte} {on : Bool} {s t : State} (h : exec (.bldWrcoil slave ch on) s = .next t)
    (hv : t.blk.fvalid = true) : channelValid ch s.blk.ch4 = true := by
  cases hc : channelValid ch s.blk.ch4 with
  | true => rfl
  | false =>
    cases (exec_bldWrcoil_invalid slave on hc).symm.trans h
    cases hv

/-- The next state of a builder that appends the checksum, low byte first (42_frame_encoder.md R90, R96). -/
theorem setBlk_succeedWith_appendCrc (p : List Byte) (w : Bool) (s : State) :
    s.setBlk (succeedWith (appendCrc p) w s.blk) = { s with blk := { s.blk with
      fbuf := p ++ [(crc16 p).extractLsb' 0 8, (crc16 p).extractLsb' 8 8]
      fvalid := true, warn := w, err := .noError } } := by
  rw [succeedWith_eq]
  rfl

/-! ## The wire row of a built frame -/

/-- A request is well-formed when its trailer is right and its channel in range (30_encoding.md R54; log 17). -/
theorem wellFormed_request {i : Instr} {frame : List Byte} (h : encode i = .request frame) :
    i.wellFormed = (trailerOk frame && i.channelInRange) := by
  cases i with
  | reqRdcoils | reqRdinputs | reqRdhold | reqWrcoil | reqWraddr =>
    cases h
    rw [wireFrame, trailerOk_append_leBytes]
    rfl
  | _ => cases h

/-- A builder whose frame is the row `row` around the checksum of its payload leaves a well-formed frame of that row. -/
theorem exists_wellFormed_of_built {i : Instr} {row : U16 → Instr} {p : List Byte} {w : Bool} {s t : State}
    (hbuild : exec i s = .next (s.setBlk (succeedWith (appendCrc p) w s.blk)))
    (hrow : encode (row (crc16 p)) = .request (appendCrc p)) (hch : (row (crc16 p)).channelInRange = true)
    (h : exec i s = .next t) : ∃ c, (row c).wellFormed = true ∧ encode (row c) = .request t.blk.fbuf := by
  cases hbuild.symm.trans h
  refine ⟨crc16 p, ?_, ?_⟩
  · rw [wellFormed_request hrow, trailerOk_appendCrc, hch]
    rfl
  · rw [State.setBlk_blk, succeedWith_eq, hrow]

/-! ## The echo of a write-coil frame -/

theorem be16_zero (b : Byte) : be16 0x00#8 b = b.setWidth 16 :=
  (BitVec.setWidth_eq_append (w := 16) (x := b) (by decide)).symm

/-- A write-coil frame has the layout of its own acknowledgement (30_encoding.md R62), whatever its trailer. -/
theorem decodeArms_writeCoil (slave ch : Byte) (on : Bool) (crc : U16) (h) :
    decodeArms (writeCoilPayload slave ch on ++ leBytes crc) h = .writeAck (ch.setWidth 16) (coilValue on) := by
  have harm := decodeArms_coil slave (loByte crc) (hiByte crc) (be16 0x00#8 ch) (coilValue on)
  rw [hiByte_be16, loByte_be16, be16_zero] at harm
  exact harm h

/-- A write-coil frame acknowledges itself whichever strict checks are enabled: its trailer is right and its
function code is the expected one. -/
theorem decodeRaw_writeCoil (strictEcho strictCrc : Bool) (slave ch : Byte) (on : Bool) :
    decodeRaw strictEcho strictCrc 0x05#8 (appendCrc (writeCoilPayload slave ch on)) =
      .writeAck (ch.setWidth 16) (coilValue on) := by
  rw [decodeRaw_passed (f := 0x05#8) (by simp) (fun _ => trailerOk_appendCrc _) rfl fun _ => rfl]
  exact decodeArms_writeCoil ..

/-! ## The statements -/

/-- Settles O30: each frame is its row's layout around the checksum; for BLD.WRCOIL the valid frame shows the channel valid. -/
theorem buildersMakeWellFormedRequests : Obligations.BuildersMakeWellFormedRequests := by
  intro slave ch new start count on s t
  refine ⟨exists_wellFormed_of_built (exec_bldRdbits_coded _ _ _ _ (.inl rfl)) rfl rfl,
    exists_wellFormed_of_built (exec_bldRdbits_coded _ _ _ _ (.inr rfl)) rfl rfl,
    exists_wellFormed_of_built (exec_bldRdhold ..) rfl rfl, fun h hv => ?_,
    exists_wellFormed_of_built (exec_bldWraddr ..) rfl rfl⟩
  have hvalid := channelValid_of_bldWrcoil h hv
  exact exists_wellFormed_of_built (exec_bldWrcoil_valid _ _ hvalid) rfl
    (decide_eq_true (toNat_le_seven_of_channelValid hvalid)) h

/-- Settles O32: a builder ends in EncodingError or in success, and both write the frame, `WARN` and `ERR` only. -/
theorem buildersFrame : Obligations.BuildersFrame := by
  intro i s t hi h
  obtain h' | ⟨f, w, h', -⟩ := exec_builder i hi s <;> cases h'.symm.trans h
  · exact ⟨⟨[], false, false, .encodingError, rfl⟩, rfl, rfl, fun _ => rfl⟩
  · exact ⟨⟨f, true, w, .noError, succeedWith_eq f w s.blk⟩, rfl, rfl, fun _ => rfl⟩

/-- Settles O44: the operand is the built frame, which acknowledges itself. -/
theorem coilEchoIsAcknowledged : Obligations.CoilEchoIsAcknowledged := by
  intro slave ch on s t u h hv hecho
  cases (exec_bldWrcoil_valid slave on (channelValid_of_bldWrcoil h hv)).symm.trans h
  rw [State.setBlk_blk, succeedWith_eq] at hecho
  have hdec : decodeOperand 0x05#8 u.blk = complete (writeResult (.writeAck (ch.setWidth 16) (coilValue on)) u.blk) := by
    rw [decodeOperand, Block.responseFor_eq, hecho, decodeRaw_writeCoil]
  exact ⟨_, congrArg (fun b => Host.Outcome.next (u.setBlk b)) hdec, rfl, rfl, rfl⟩

/-- Settles O25, by the two outcomes of the test of the function code. -/
theorem rdbitsResult : Obligations.RdbitsResult := by
  intro slave fn start count s
  refine ⟨decodeOfEncodeIsIdentity (.bldRdbits slave fn start count), fun hfn => ⟨_, rfl, ?_⟩,
    fun h₁ h₂ => ⟨_, exec_bldRdbits_miscoded slave start count s h₁ h₂, rfl, rfl, rfl⟩⟩
  rw [exec_bldRdbits_coded slave start count s hfn, setBlk_succeedWith_appendCrc]
  rfl

/-- Settles O26: the builder tests nothing, so its one outcome is the frame. -/
theorem rdholdBuildsReadRequest : Obligations.RdholdBuildsReadRequest := by
  intro slave start count s
  refine ⟨decodeOfEncodeIsIdentity (.bldRdhold slave start count), _, rfl, ?_⟩
  rw [exec_bldRdhold, setBlk_succeedWith_appendCrc]
  rfl

/-- Settles O27, by the two outcomes of the test of the channel index. -/
theorem wrcoilResult : Obligations.WrcoilResult := by
  intro slave ch on s
  refine ⟨decodeOfEncodeIsIdentity (.bldWrcoil slave ch on), fun hch => ⟨_, rfl, ?_⟩,
    fun hch => ⟨_, exec_bldWrcoil_invalid slave on (channelValid_eq_false_iff.mpr hch), rfl, rfl, rfl⟩⟩
  rw [exec_bldWrcoil_valid slave on (channelValid_iff.mpr hch), setBlk_succeedWith_appendCrc, writeCoilPayload_eq]

/-- Settles O28: `WARN` is the comparison of the new address with 0xFF. -/
theorem wraddrBuildsAddressFrame : Obligations.WraddrBuildsAddressFrame := by
  intro new s
  refine ⟨decodeOfEncodeIsIdentity (.bldWraddr new), _, rfl, ?_⟩
  rw [exec_bldWraddr, setBlk_succeedWith_appendCrc]
  rfl

/-- Settles O29, with the checksum and without. -/
theorem rawPassesTheOperand : Obligations.RawPassesTheOperand := by
  refine fun withCrc s => ⟨decodeOfEncodeIsIdentity (.bldRaw withCrc), ?_⟩
  rw [exec_bldRaw]
  cases withCrc with
  | true => exact congrArg _ (setBlk_succeedWith_appendCrc ..)
  | false => exact congrArg (fun b => Host.Outcome.next (s.setBlk b)) (succeedWith_eq ..)

end Sys2Proof.Machine

/-! SUPPORT. The response decoder: the four function-code arms by the bytes they read, the strict checks on the block's own
operand, and what DEC.DECODE leaves in the registers (43_response_decoder.md R105 to R118). -/

namespace Sys2Proof.Machine

/-! ## The arms by the bytes they read (43_response_decoder.md R109 to R112) -/

section
variable {raw : List Byte} {fn v : Byte} (h4 : 4 ≤ raw.length)

theorem decodeArms_eq_bitStatus (h1 : raw[1]? = some fn) (hfn : fn = 0x01#8 ∨ fn = 0x02#8) (h3 : raw[3]? = some v) :
    decodeArms raw h4 = .bitStatus v := by
  obtain ⟨_, rfl⟩ := List.getElem?_eq_some_iff.mp h1
  obtain ⟨_, rfl⟩ := List.getElem?_eq_some_iff.mp h3
  exact if_pos hfn

theorem decodeArms_eq_registerByteValue (h1 : raw[1]? = some 0x03#8) (h : raw[4]? = some v) :
    decodeArms raw h4 = .registerByteValue v := by
  obtain ⟨_, hcode⟩ := List.getElem?_eq_some_iff.mp h1
  obtain ⟨h5, rfl⟩ := List.getElem?_eq_some_iff.mp h
  unfold decodeArms
  rw [if_neg (by simp [hcode]), dif_pos ⟨hcode, h5⟩]

theorem decodeArms_eq_writeAck {b2 b3 b4 b5 : Byte} (h1 : raw[1]? = some 0x05#8) (h2 : raw[2]? = some b2)
    (h3 : raw[3]? = some b3) (h4' : raw[4]? = some b4) (h5 : raw[5]? = some b5) :
    decodeArms raw h4 = .writeAck (be16 b2 b3) (be16 b4 b5) := by
  obtain ⟨_, hcode⟩ := List.getElem?_eq_some_iff.mp h1
  obtain ⟨_, rfl⟩ := List.getElem?_eq_some_iff.mp h2
  obtain ⟨_, rfl⟩ := List.getElem?_eq_some_iff.mp h3
  obtain ⟨_, rfl⟩ := List.getElem?_eq_some_iff.mp h4'
  obtain ⟨h6, rfl⟩ := List.getElem?_eq_some_iff.mp h5
  unfold decodeArms
  rw [if_neg (by simp [hcode]), dif_neg (by simp [hcode]), dif_pos ⟨hcode, h6⟩]

theorem decodeArms_eq_malformed (h1 : raw[1]? = some fn) (hbits : ¬ (fn = 0x01#8 ∨ fn = 0x02#8))
    (hregister : ¬ (fn = 0x03#8 ∧ 5 ≤ raw.length)) (hack : ¬ (fn = 0x05#8 ∧ 6 ≤ raw.length)) :
    decodeArms raw h4 = .malformed := by
  obtain ⟨_, rfl⟩ := List.getElem?_eq_some_iff.mp h1
  unfold decodeArms
  rw [if_neg hbits, dif_neg hregister, dif_neg hack]

end

/-- The arms read the length and the bytes at the indices 1 to 5 only (43_response_decoder.md R117). -/
theorem decodeArms_congr {raw raw' : List Byte} (h4 : 4 ≤ raw.length) (h4' : 4 ≤ raw'.length)
    (hlen : raw.length = raw'.length) (hbytes : ∀ j, 1 ≤ j → j ≤ 5 → raw[j]? = raw'[j]?) :
    decodeArms raw h4 = decodeArms raw' h4' := by
  have byte (j : Nat) (hj : 1 ≤ j ∧ j ≤ 5) (h : j < raw.length) : raw[j] = raw'[j]'(hlen ▸ h) :=
    Option.some.inj (by simpa [h, ← hlen] using hbytes j hj.1 hj.2)
  unfold decodeArms
  refine if_congr (by rw [byte 1 (by decide)]) (by rw [byte 3 (by decide)]) <|
    dite_congr (by simp only [byte 1 (by decide), hlen]) (fun _ => ?_) fun _ =>
    dite_congr (by simp only [byte 1 (by decide), hlen]) (fun _ => ?_) fun _ => rfl
  · rw [byte 4 (by decide)]
  · rw [byte 2 (by decide), byte 3 (by decide), byte 4 (by decide), byte 5 (by decide)]

/-! ## The decoder's tests -/

/-- Where no arm applies, the strict checks make no difference. -/
theorem decodeRaw_malformed_of_decodeArms {e c : Bool} {expfn fn : Byte} {raw : List Byte} (h4 : 4 ≤ raw.length)
    (h1 : raw[1]? = some fn) (h : decodeArms raw h4 = .malformed) : decodeRaw e c expfn raw = .malformed := by
  by_cases hpass : (c = true → trailerOk raw = true) ∧ (e = true → expfn = fn)
  · rw [decodeRaw_passed h4 hpass.1 h1 fun he => (hpass.2 he).symm, h]
  · exact decodeRaw_failed h4 h1 hpass

/-- With STRICT_ECHO off the expected code is not used (43_response_decoder.md R114). -/
theorem decodeRaw_tolerant (c : Bool) (fn fn' : Byte) (raw : List Byte) :
    decodeRaw false c fn raw = decodeRaw false c fn' raw := by simp [decodeRaw]

/-- A response that echoes the expected code decodes as with STRICT_ECHO off (43_response_decoder.md R114). -/
theorem decodeRaw_echoed (e c : Bool) {fn : Byte} {raw : List Byte} (h1 : raw[1]? = some fn) :
    decodeRaw e c fn raw = decodeRaw false c fn raw := by
  obtain ⟨_, rfl⟩ := List.getElem?_eq_some_iff.mp h1
  simp [decodeRaw]

/-- With both options off the length alone is tested before the arms. -/
theorem decodeRaw_default_congr (fn fn' : Byte) {raw raw' : List Byte} (hlen : raw.length = raw'.length)
    (hbytes : ∀ j, 1 ≤ j → j ≤ 5 → raw[j]? = raw'[j]?) :
    decodeRaw false false fn raw = decodeRaw false false fn' raw' := by
  simp only [decodeRaw, hlen, Bool.false_eq_true, false_and, if_false]
  split_ifs with h0 h4
  · rfl
  · rfl
  · exact decodeArms_congr _ _ hlen hbytes

theorem trailerOk_eq_true {raw : List Byte} :
    trailerOk raw = true ↔ raw.drop (raw.length - 2) = crcBytes (raw.take (raw.length - 2)) := beq_iff_eq

/-- The checks of the statements are those of the decoder. -/
theorem Block.responseFor_checksPass {b : Block} {expfn fn : Byte} (hpass : b.checksPass expfn) (h4 : 4 ≤ b.ibuf.length)
    (h1 : b.ibuf[1]? = some fn) : b.responseFor expfn = decodeArms b.ibuf h4 := by
  obtain ⟨hcrc, hecho⟩ := hpass
  rw [Block.responseFor_eq]
  exact decodeRaw_passed h4 (fun hc => trailerOk_eq_true.mpr (hcrc hc)) h1 fun he => Option.some.inj (h1.symm.trans (hecho he))

/-! ## The result in the registers (43_response_decoder.md R118) -/

/-- DEC.DECODE writes its result and completes. -/
theorem exec_decDecode {expfn : Byte} {s : State} {r : Response} (h : s.blk.responseFor expfn = r) :
    exec (.decDecode expfn) s = .next (s.setBlk (complete (writeResult r s.blk))) := by
  subst h
  rfl

theorem Response.tag_code_bounds (r : Response) : 1 ≤ r.tag.code.toNat ∧ r.tag.code.toNat ≤ 5 := by
  cases r <;> simp [Response.tag, RespTag.code]

/-- A result written gives a value to exactly the payload registers of its own tag. -/
theorem writeResult_payloadSound (r : Response) (b : Block) : (complete (writeResult r b)).payloadSound := by
  cases r <;> simp [Block.payloadSound, complete, writeResult]

/-- A result written is all that the five registers of the Response depend on: nothing of an earlier one survives. -/
theorem writeResult_determines (r : Response) (b b' : Block) :
    (writeResult r b).rtag = (writeResult r b').rtag ∧ (writeResult r b).bits = (writeResult r b').bits ∧
      (writeResult r b).regval = (writeResult r b').regval ∧ (writeResult r b).ackAddr = (writeResult r b').ackAddr ∧
      (writeResult r b).ackVal = (writeResult r b').ackVal := by
  cases r <;> exact ⟨rfl, rfl, rfl, rfl, rfl⟩

theorem writeResult_setCfg (r : Response) (b : Block) (v : BitVec 3) :
    complete (writeResult r (b.setCfg v)) = (complete (writeResult r b)).setCfg v := by
  cases r <;> rfl

theorem be16_toNat (hi lo : Byte) : (be16 hi lo).toNat = 256 * hi.toNat + lo.toNat := by
  rw [be16, BitVec.toNat_append, ← Nat.shiftLeft_add_eq_or_of_lt lo.isLt, Nat.shiftLeft_eq]
  omega

/-! ## The statements -/

/-- Settles O38: the failed check, the code not used, and the check that an echo passes. -/
theorem strictEchoRule : Obligations.StrictEchoRule := by
  refine fun expfn other fn s => ⟨fun hon h4 h1 hne => ?_, fun hoff => ?_, fun h1 => ?_⟩
  · have hresult : s.blk.responseFor expfn = .malformed := by
      rw [Block.responseFor_eq]
      exact decodeRaw_failed h4 h1 fun hpass => hne (hpass.2 hon).symm
    exact ⟨_, exec_decDecode hresult, rfl, rfl⟩
  · have hsame : s.blk.responseFor expfn = s.blk.responseFor other := by
      rw [Block.responseFor_eq, Block.responseFor_eq, show s.blk.strictEcho = false from hoff]
      exact decodeRaw_tolerant ..
    exact exec_decDecode hsame
  · have hoff : (s.blk.setCfg (s.blk.cfg &&& 6#3)).responseFor expfn = s.blk.responseFor expfn := by
      rw [Block.responseFor_eq, Block.responseFor_eq, decodeRaw_echoed s.blk.strictEcho _ h1]
      simp [Block.strictEcho, Block.strictCrc]
    refine ⟨_, _, rfl, rfl, (exec_decDecode hoff).trans ?_⟩
    rw [State.setBlk_blk, writeResult_setCfg]
    rfl

/-- Settles O39: a wrong trailer fails the enabled check, whatever the function code. -/
theorem strictCrcRule : Obligations.StrictCrcRule := by
  intro expfn s hon h4 hbad
  have hresult : s.blk.responseFor expfn = .malformed := by
    rw [Block.responseFor_eq]
    have h1 : 1 < s.blk.ibuf.length := Nat.lt_of_lt_of_le (by decide) h4
    exact decodeRaw_failed h4 (List.getElem?_eq_getElem h1) fun hpass => hbad (trailerOk_eq_true.mp (hpass.1 hon))
  exact ⟨_, exec_decDecode hresult, rfl, rfl, rfl⟩

/-- Settles O40: one result, written whole. -/
theorem decodeIsTotal : Obligations.DecodeIsTotal := by
  intro expfn s
  refine ⟨_, rfl, ?_⟩
  have hcode : (decodeOperand expfn s.blk).rtag = (s.blk.responseFor expfn).tag := writeResult_rtag ..
  obtain ⟨hlow, hhigh⟩ := (s.blk.responseFor expfn).tag_code_bounds
  exact ⟨hcode ▸ hlow, hcode ▸ hhigh, rfl, writeResult_payloadSound ..⟩

/-- Settles O41: the results are equal, and a result determines all five registers. -/
theorem defaultDecodeLooksAtFewBytes : Obligations.DefaultDecodeLooksAtFewBytes := by
  intro e1 e2 s1 s2 t1 t2 hecho1 hcrc1 hecho2 hcrc2 hlen hbytes h1 h2
  have hsame : s1.blk.responseFor e1 = s2.blk.responseFor e2 := by
    simp only [Block.responseFor_eq, Block.strictEcho, Block.strictCrc, hecho1, hcrc1, hecho2, hcrc2]
    exact decodeRaw_default_congr e1 e2 hlen hbytes
  cases (exec_decDecode hsame).symm.trans h1
  cases h2
  exact writeResult_determines _ _ _

/-- Settles O42, by the registers that a result writes. -/
theorem decodeFrame : Obligations.DecodeFrame := by
  intro expfn s t h
  cases h
  obtain ⟨g, bs, rv, aa, av, hw⟩ := writeResult_frame (s.blk.responseFor expfn) s.blk
  have hblk : decodeOperand expfn s.blk = complete (s.blk.setResult g bs rv aa av) := congrArg complete hw
  refine ⟨⟨g, bs, rv, aa, av, .noError, hblk⟩, rfl, rfl, fun j => ?_, fun j => ?_⟩ <;>
    rw [State.setBlk_blk, hblk] <;> rfl

/-- Settles O33: the two tests of the length, before any byte is looked at. -/
theorem decodeEmptyAndShort : Obligations.DecodeEmptyAndShort := by
  refine fun expfn s => ⟨fun h0 => exec_decDecode (r := .timeout) ?_, fun h1 h3 => exec_decDecode (r := .malformed) ?_⟩
  · rw [Block.responseFor_eq, List.eq_nil_of_length_eq_zero h0, decodeRaw_nil]
  · rw [Block.responseFor_eq]
    exact decodeRaw_short _ _ _ _ (List.ne_nil_of_length_pos h1) (Nat.lt_succ_of_le h3)

/-- Settles O34, by the bit-status arm. -/
theorem decodeBitStatus : Obligations.DecodeBitStatus := by
  intro expfn fn v s hfn h1 h3 hpass
  obtain ⟨h4, -⟩ := List.getElem?_eq_some_iff.mp h3
  exact exec_decDecode ((Block.responseFor_checksPass hpass h4 h1).trans (decodeArms_eq_bitStatus h4 h1 hfn h3))

/-- Settles O35, by the register arm. -/
theorem decodeRegisterByte : Obligations.DecodeRegisterByte := by
  intro expfn v s h1 h hpass
  obtain ⟨h5, -⟩ := List.getElem?_eq_some_iff.mp h
  have h4 := Nat.le_of_succ_le h5
  exact exec_decDecode ((Block.responseFor_checksPass hpass h4 h1).trans (decodeArms_eq_registerByteValue h4 h1 h))

/-- Settles O36, by the write-acknowledge arm. -/
theorem decodeWriteAck : Obligations.DecodeWriteAck := by
  intro expfn b2 b3 b4 b5 s h1 h2 h3 h h5 hpass
  obtain ⟨h4, -⟩ := List.getElem?_eq_some_iff.mp h3
  exact ⟨be16 b2 b3, be16 b4 b5, be16_toNat b2 b3, be16_toNat b4 b5,
    exec_decDecode ((Block.responseFor_checksPass hpass h4 h1).trans (decodeArms_eq_writeAck h4 h1 h2 h3 h h5))⟩

/-- Settles O37: no arm applies, so the result is Malformed whether the strict checks pass or not. -/
theorem decodeOtherIsMalformed : Obligations.DecodeOtherIsMalformed := by
  intro expfn fn s h4 h1 ⟨hne1, hne2, hregister, hack⟩
  have harm : decodeArms s.blk.ibuf h4 = .malformed := by
    refine decodeArms_eq_malformed h4 h1 (not_or.mpr ⟨hne1, hne2⟩) ?_ ?_
    · rintro ⟨hfn, h5⟩
      exact absurd (h5.trans_eq (hregister hfn)) (by decide)
    · rintro ⟨hfn, h6⟩
      exact absurd (h6.trans (hack hfn)) (by decide)
  refine exec_decDecode (r := .malformed) ?_
  rw [Block.responseFor_eq]
  exact decodeRaw_malformed_of_decodeArms h4 h1 harm

/-- Settles O43: bit `i` of a byte is bit `i` of its value. -/
theorem unpackGivesEightChannels : Obligations.UnpackGivesEightChannels := by
  intro b
  refine ⟨by simp [unpack8], fun i hi => ?_⟩
  simp [unpack8, List.getElem?_range hi, BitVec.testBit_toNat]

end Sys2Proof.Machine

/-! SUPPORT. The operand buffer and the configuration as command words (44_buffer_config.md R120 to R122), and what a direct read
of each register returns (R123): the register's number, or nothing where the field holds no value. -/

namespace Sys2Proof.Machine

/-! ## The operand buffer and the configuration -/

/-- Settles O20: the word is the operation's encoding, the next state its meaning. -/
theorem bufClrResult : Obligations.BufClrResult := ⟨decodeOfEncodeIsIdentity .bufClr, fun _ => rfl⟩

/-- Settles O22: the words load the operand, and a load that fits is whole. -/
theorem loadingWordsLoadTheOperand : Obligations.LoadingWordsLoadTheOperand := by
  intro s bytes rest hfit hp
  rw [run_loadWords bytes rest s hp, loadOperand_fits s.bufMax bytes s.blk hfit]
  rfl

/-- Settles O23: `CFG` is one field, so its three bits are written at once. -/
theorem cfgSetResult : Obligations.CfgSetResult := fun flags _ => ⟨decodeOfEncodeIsIdentity (.cfgSet flags), rfl⟩

/-! ## The two halves of a 16-bit value as numbers (10_state.md R12) -/

theorem loByte_toNat (v : U16) : (loByte v).toNat = v.toNat % 256 := by
  have hv := be16_toNat (hiByte v) (loByte v)
  rw [be16_hi_lo] at hv
  have := (loByte v).isLt
  omega

theorem hiByte_toNat (v : U16) : (hiByte v).toNat = v.toNat / 256 := by
  have hv := be16_toNat (hiByte v) (loByte v)
  rw [be16_hi_lo] at hv
  have := (loByte v).isLt
  omega

/-! ## What a read returns -/

section

variable {s : State} {b : Block} {r : RegName} {rest : List HostAction}

/-- A read of a field with a value records what the host saw and writes nothing else. -/
theorem step_readReg_some (hp : s.env.program = .readReg r :: rest) {v : Nat} (hr : s.blk.read r = some v) :
    step s = .next { s with env := { s.env with program := rest, lastRead := some v } } := by
  rw [step_cons s _ rest hp, runAction, readRegister, State.setProgram_blk, hr]
  rfl

/-- A read of a field without a value is the host error of 10_state.md R24. -/
theorem step_readReg_none (hp : s.env.program = .readReg r :: rest) (hr : s.blk.read r = none) :
    step s = .fault (.noValue r) := by
  rw [step_cons s _ rest hp, runAction, readRegister, State.setProgram_blk, hr]

/-- A field that may hold no value reads as its number when it holds one, and as nothing when it does not. -/
theorem Block.read_of_field {w : Nat} {field : Option (BitVec w)} (h : b.read r = field.map (·.toNat)) :
    (∀ v, field = some v → b.read r = some v.toNat) ∧ (field = none → b.read r = none) := by
  cases field with
  | none => exact ⟨nofun, fun _ => h⟩
  | some v =>
    refine ⟨fun u hu => ?_, nofun⟩
    cases hu
    exact h

theorem Block.read_fbufByte_valid (hv : b.fvalid = true) (j : Nat) :
    b.read (.fbufByte j) = b.fbuf[j]?.map (·.toNat) := if_pos hv

/-- No byte of the frame reads at `FLEN` or beyond, nor any while `FVALID` is 0 (10_state.md R14). -/
theorem Block.read_fbufByte_none {j : Nat} (h : b.fvalid = false ∨ b.flen ≤ j) : b.read (.fbufByte j) = none := by
  cases hv : b.fvalid with
  | false => rw [read, hv, if_neg Bool.false_ne_true]
  | true =>
    have hj : b.flen ≤ j := h.resolve_left (by simp [hv])
    exact (read_of_field (read_fbufByte_valid hv j)).2 (List.getElem?_eq_none hj)

end

/-! ## The statement on reads -/

/-- Settles O52: the two outcomes of the step, then each register by the field it shows. -/
theorem hostReadsChangeNothing : Obligations.HostReadsChangeNothing := by
  intro s r rest
  refine ⟨fun hp => ⟨fun _ => step_readReg_some hp, step_readReg_none hp⟩, ?crc, ?crcLo, ?crcHi, ?ibufByte, ?ibufBeyond, ?ilen,
    ?fbufByte, fun _ => Block.read_fbufByte_none, ?flen, ?fvalid, ?rtag, Block.read_of_field rfl, Block.read_of_field rfl,
    Block.read_of_field rfl, Block.read_of_field rfl, ?err, ?warn, ?cfg⟩
  case crc | ilen | flen | cfg => rfl
  case crcLo => exact congrArg some (loByte_toNat s.blk.crc)
  case crcHi => exact congrArg some (hiByte_toNat s.blk.crc)
  case ibufByte => exact fun j hj => (Block.read_of_field rfl).1 _ (List.getElem?_eq_getElem hj)
  case ibufBeyond => exact fun j hj => (Block.read_of_field rfl).2 (List.getElem?_eq_none hj)
  case fbufByte => exact fun j hj hv => (Block.read_of_field (Block.read_fbufByte_valid hv j)).1 _ (List.getElem?_eq_getElem hj)
  case fvalid | warn => exact congrArg some (Bool.cond_eq_ite ..)
  case rtag =>
    rw [Block.read]
    cases s.blk.rtag <;> rfl
  case err =>
    rw [Block.read]
    cases s.blk.err <;> rfl

end Sys2Proof.Machine

/-! SUPPORT. XACT in its three steps (45_transaction.md R129, R130; log 20): the write of the built frame, the one read, the decode
of what it returned; and the turn-taking of the link (20_memory.md R42). -/

namespace Sys2Proof.Machine

/-! ## Runs one after the other -/

/-- A run that completes is continued from the state it reaches. -/
theorem run_add {m : Nat} (n : Nat) {s t : State} (h : Host.Core.run Sys2Proof.core m s = .next t) :
    Host.Core.run Sys2Proof.core (m + n) s = Host.Core.run Sys2Proof.core n t := by
  induction m generalizing s with
  | zero =>
    cases h
    rw [Nat.zero_add]
  | succ m ih =>
    obtain ⟨u, hu⟩ | ⟨r, hr, -⟩ := step_cases s
    · rw [run_succ m s u hu] at h
      rw [Nat.succ_add, run_succ _ s u hu, ih h]
    · simp only [Host.Core.run, show Sys2Proof.core.step s = .fault r from hr] at h
      cases h

/-! ## The write -/

@[simp] theorem State.setProgram_awaiting (s : State) (p : List HostAction) :
    (s.setProgram p).env.awaiting = s.env.awaiting := rfl

section
variable {s : State} {fn : Byte} {raw : List Byte} {rest : List HostAction}

/-- A frame sent leaves its transaction in FrameSent exactly when an open channel takes it. -/
theorem sendFrame_phase_eq_frameSent (code : Option Byte) (frame : List Byte) (s : State) :
    (sendFrame code frame s).env.phase = .frameSent ↔
      s.env.channel.isSome = true ∧ Config.writeSucceeds (settle s).env.oracle = true := by
  by_cases h : s.env.channel.isSome = true ∧ Config.writeSucceeds (settle s).env.oracle = true
  · rw [sendFrame_taken code frame s h.1 h.2]
    exact iff_of_true rfl h
  · rw [sendFrame_failed code frame s h]
    exact iff_of_false nofun h

/-- XACT's write is the built frame sent; the one read is put on the script when the write is taken. -/
theorem step_xact (hp : s.env.program = .xact fn :: rest) (hv : s.blk.fvalid = true) :
    step s = .next ((sendFrame (some fn) s.blk.fbuf s).setProgram
      (if s.env.channel.isSome = true ∧ Config.writeSucceeds (settle s).env.oracle = true
        then .xactRead fn :: rest else rest)) := by
  rw [step_cons s _ rest hp, runAction, xactWrite, State.setProgram_blk, if_pos hv, Block.frame_eq, sendFrame_setProgram]
  simp only [State.setProgram_phase, sendFrame_phase_eq_frameSent]
  split <;> rfl

/-- Without a frame XACT is the host error of 45_transaction.md R137 (log 14). -/
theorem step_xact_invalid (hp : s.env.program = .xact fn :: rest) (hv : s.blk.fvalid = false) :
    step s = .fault (.noValue (.fbufByte 0)) := by
  rw [step_cons s _ rest hp, runAction, xactWrite, State.setProgram_blk, hv, if_neg Bool.false_ne_true]

/-! ## The read -/

/-- The one read of a transaction that waits: the bytes it returns go to the decode, which comes next. -/
theorem step_xactRead (hp : s.env.program = .xactRead fn :: rest) (hw : s.env.awaiting = true) :
    step s = .next (s.setEnv { s.env with
      program := .xactDecode fn s.env.readBytes :: rest
      phase := if s.env.readBytes = [] then .timedOut else .responseReceived
      outcome := .pending
      oracle := s.env.oracle + 1 }) := by
  rw [step_cons s _ rest hp, runAction, xactRead, State.setProgram_awaiting, if_pos hw]
  rfl

theorem step_xactRead_idle (hp : s.env.program = .xactRead fn :: rest) (hw : s.env.awaiting = false) :
    step s = .next (s.setProgram rest) := by
  rw [step_cons s _ rest hp, runAction, xactRead, State.setProgram_awaiting, hw, if_neg Bool.false_ne_true]
  rfl

/-! ## The decode -/

theorem step_xactDecode (hp : s.env.program = .xactDecode fn raw :: rest)
    (hr : s.env.phase = .responseReceived ∨ s.env.phase = .timedOut) :
    step s = .next (finishTransaction fn raw (s.setProgram rest)) := by
  rw [step_cons s _ rest hp, runAction, xactDecode, State.setProgram_phase, if_pos hr]

/-- Without a read before it nothing is decoded (log 23). -/
theorem step_xactDecode_unread (hp : s.env.program = .xactDecode fn raw :: rest)
    (hr : ¬ (s.env.phase = .responseReceived ∨ s.env.phase = .timedOut)) : step s = .next (s.setProgram rest) := by
  rw [step_cons s _ rest hp, runAction, xactDecode, State.setProgram_phase, if_neg hr]

/-- The words BUF.CLR, BUF.PUSH for each byte and DEC.DECODE, run one by one, load the bytes and decode what was loaded. -/
theorem run_decodeWords (hp : s.env.program = loadWords raw ++ op (.decDecode fn) :: rest) :
    Host.Core.run Sys2Proof.core (raw.length + 2) s =
      .next ((s.setProgram rest).setBlk (decodeOperand fn (loadOperand s.bufMax raw s.blk))) := by
  rw [run_add 1 (run_loadWords raw _ s hp), run_succ 0 _ _ (step_op (i := .decDecode fn) rfl rfl)]
  rfl

/-- The outcome of a transaction is the Response its registers hold (10_state.md R15). -/
theorem finishTransaction_response (fn : Byte) (raw : List Byte) (s : State) :
    ∃ r, (finishTransaction fn raw s).env.outcome = .response r ∧ (finishTransaction fn raw s).blk.response = some r :=
  ⟨_, rfl, Block.response_writeResult ..⟩

/-- The read of a transaction that waits, then its decode, are its end. -/
theorem run_xactRead (hp : s.env.program = .xactRead s.env.expFn :: rest) (hw : s.env.awaiting = true) :
    Host.Core.run Sys2Proof.core 2 s = .next ((settle s).setProgram rest) := by
  rw [run_succ 1 _ _ (step_xactRead hp hw), run_succ 0 _ _ (step_xactDecode rfl (ite_eq_or_eq _ _ _).symm),
    settle_waiting s hw]
  rfl

end

/-! ## Turn-taking -/

@[simp] theorem sendFrame_settle (code : Option Byte) (frame : List Byte) (s : State) :
    sendFrame code frame (settle s) = sendFrame code frame s := by
  rw [sendFrame, settle_settle]
  rfl

/-- Every use of the link ends a transaction that waits before it does anything else (log 24). -/
theorem runAction_settle {a : HostAction} (ha : a.usesLink = true) (s : State) : runAction a (settle s) = runAction a s := by
  cases a with
  | packet p =>
    cases p with
    | request frame =>
      cases hd : decode (.request frame) with
      | ok i =>
        obtain ⟨code, f, hexec⟩ := exec_of_decodeRequest hd
        rw [runAction, runAction, runPacket_ok hd, runPacket_ok hd, hexec, hexec, sendFrame_settle]
      | error e =>
        rw [runAction, runAction, runPacket_error hd, runPacket_error hd, runUndecoded, runUndecoded, sendFrame_settle]
    | command | response => cases ha
  | xact fn => simp [runAction, xactWrite]
  | openPort | closePort => rw [runAction, runAction, settle_settle]
  | transaction => rw [runAction, runAction, hostSequence, hostSequence, settle_settle]
  | _ => cases ha

/-! ## The statements -/

/-- Settles O55: both load the bytes and decode what was loaded, whatever the capacity. -/
theorem xactDecodeIsItsCommandWords : Obligations.XactDecodeIsItsCommandWords := by
  rintro s u fn raw rest hp rfl
  refine ⟨fun hr => ?_, fun hr ht => step_xactDecode_unread hp (not_or.mpr ⟨hr, ht⟩)⟩
  obtain ⟨r, hout, hres⟩ := finishTransaction_response fn raw (s.setProgram rest)
  exact ⟨_, _, r, step_xactDecode hp hr, run_decodeWords rfl, rfl, rfl, rfl, hout, hres⟩

/-- Settles O53: with a frame XACT's first step is that frame sent, without one the fault. -/
theorem xactWritesTheWholeFrame : Obligations.XactWritesTheWholeFrame := by
  rintro s u fn rest hp rfl
  exact ⟨fun hv => ⟨settle_idle s, _, step_xact hp hv, sendFrame_frameWritten (some fn) s.blk.fbuf s, rfl, rfl⟩,
    step_xact_invalid hp⟩

/-- Settles O54: the read by its two cases, and a use of the link by the end of the transaction it starts with. -/
theorem xactReadsAtMostEightBytes : Obligations.XactReadsAtMostEightBytes := by
  constructor
  · intro s fn rest hp
    exact ⟨fun hw => ⟨_, rfl, List.length_take_le 8 _, step_xactRead hp hw⟩, step_xactRead_idle hp⟩
  · intro s a rest hp ha hw
    refine ⟨settle_not_awaiting s, ?_, ?_⟩
    · rw [step_cons s a rest hp, step_cons (settle s) a rest ((settle_program s).trans hp), ← settle_setProgram,
        runAction_settle ha]
    · rw [run_xactRead (s := s.setProgram (.xactRead s.env.expFn :: a :: rest)) rfl hw, settle_setProgram,
        State.setProgram_setProgram, ← hp, ← settle_program]
      rfl

end Sys2Proof.Machine

/-! SUPPORT. The two exceptions that write `ERR` alone, IllegalCommand and BufferOverflow (60_exceptions.md R147, R148), with
BUF.PUSH on either side of the second (44_buffer_config.md R121), and the idle block (R158, log 15). -/

namespace Sys2Proof.Machine

/-- An illegal command word is taken off the script and raises IllegalCommand. -/
theorem step_illegalCommand {s : State} {cw : CommandWord} {e : DecodeError} {rest : List HostAction}
    (hp : s.env.program = .packet (.command cw) :: rest) (hd : decodeCommand cw = .error e) :
    step s = .next ((s.setProgram rest).setBlk (raise .illegalCommand s.blk)) :=
  (step_cons s _ rest hp).trans (runPacket_error (p := .command cw) hd _)

theorem exec_bufPush_room (b : Byte) {s : State} (h : s.bufMax ≠ some s.blk.ilen) :
    exec (.bufPush b) s = .next (s.setBlk { s.blk with ibuf := s.blk.ibuf ++ [b], err := .noError }) :=
  congrArg (fun c => Host.Outcome.next (s.setBlk c)) (pushOperand_room s.bufMax b s.blk h)

theorem exec_bufPush_full (b : Byte) {s : State} (h : s.bufMax = some s.blk.ilen) :
    exec (.bufPush b) s = .next (s.setBlk (raise .bufferOverflow s.blk)) :=
  congrArg (fun c => Host.Outcome.next (s.setBlk c)) (h ▸ pushOperand_full b s.blk)

/-- Settles O8: the exception is raised on the registers as they stood. -/
theorem illegalCommandWritesErrOnly : Obligations.IllegalCommandWritesErrOnly :=
  fun _ _ _ _ hp hd => ⟨_, step_illegalCommand hp hd, rfl, rfl, rfl, rfl⟩

/-- Settles O9, by the step's first case. -/
theorem idleKeepsState : Obligations.IdleKeepsState := step_nil

/-- Settles O21: with room the operand grows at its end, so the bytes below stay; when full only `ERR` is written. -/
theorem bufPushResult : Obligations.BufPushResult := by
  intro b s
  constructor
  · intro hroom
    exact ⟨_, exec_bufPush_room b hroom, List.length_append, List.getElem?_concat_length,
      fun _ hj => List.getElem?_append_left hj, rfl, rfl⟩
  · intro hfull
    exact ⟨_, exec_bufPush_full b hfull, rfl, rfl⟩

end Sys2Proof.Machine

/-! SUPPORT. Reset (70_reset_and_hazards.md R160): the values of the registers, the reset event, and the invariant the machine
starts with. -/

namespace Sys2Proof.Machine

/-- The reset event, applied to any state, puts the reset registers in place and leaves the environment its remaining script. -/
theorem step_resetBlock {s : State} {rest : List HostAction} (hp : s.env.program = .resetBlock :: rest) :
    step s = .next ((s.setProgram rest).setBlk Block.reset) :=
  step_cons s .resetBlock rest hp

/-- No transaction waits for its read when the machine starts. -/
theorem Env.linkSound_initial : Env.initial.linkSound := fun h => by cases h

/-- Settles O1: the values are those of `Block.reset`, and the reset event writes that block over any registers. -/
theorem resetRegisterValues : Obligations.ResetRegisterValues := by
  constructor
  · exact ⟨rfl, rfl, rfl, rfl, rfl, rfl, rfl, rfl, rfl, rfl, rfl, rfl⟩
  · intro s rest hp
    exact ⟨_, step_resetBlock hp, rfl⟩

/-- Settles O45, part by part of the invariant. -/
theorem resetMeetsInvariant : Obligations.ResetMeetsInvariant where
  block := Block.reset_sound
  outcome := Env.outcomeSound_initial
  link := Env.linkSound_initial

end Sys2Proof.Machine
